-- ==== Sys2Proof/Word.lean ====
section
/-! DEFINITION. The word types of the unit (00_scope.md R6, R8): data words, command and response words, and the
bytes in which an interconnect may carry them (20_memory.md R29). -/
namespace Sys2Proof

/-- A hash, a divisor, a quotient or a remainder: W = 32 bits (R6). -/
abbrev Word32 := BitVec 32

/-- A magic multiplier, 33 bits (R6, R16). -/
abbrev Mult := BitVec 33

/-- A shift field, 6 bits (R6, R17). -/
abbrev Shift := BitVec 6

/-- A command word `CMD[95:0]` (R40). -/
abbrev CmdWord := BitVec 96

/-- A response word `RSP[95:0]` (R41). -/
abbrev RspWord := BitVec 96

/-- One byte of a serialized command or response word (R29). -/
abbrev Byte := BitVec 8

end Sys2Proof
end

