-- ==== Sys2Proof/Config.lean ====
section
/-! DEFINITION. What an implementation fixes and the spec leaves open: the parameters of 00_scope.md R7, on which no value
depends, and how much the unit can hold before it stalls (70_reset_and_hazards.md R103). Each is an opaque constant, so
that a proof can use nothing but its least value. -/
namespace Sys2Proof

/-- How far `LAT_QR` lies above its least value 1 (R7: "integer >= 1"). -/
opaque Config.latQrAboveOne : Nat

/-- How far `LAT_DERIVE` lies above its least value 1 (R7). -/
opaque Config.latDeriveAboveOne : Nat

/-- How far `LAT_INFO` lies above its least value 1 (R7). -/
opaque Config.latInfoAboveOne : Nat

/-- How far `II` lies above its least value 1 (R7). -/
opaque Config.initiationAboveOne : Nat

/-- `PLATFORM_BASE`: where a platform maps the unit, if it maps it at all (R7, R32). The unit decodes no address,
so nothing in the model reads it. -/
opaque Config.platformBase : Nat

/-- `LAT_QR`: cycles from acceptance of QUOT or REM to its response (R7). -/
def Config.latQr : Nat := Config.latQrAboveOne + 1

/-- `LAT_DERIVE`: cycles from acceptance of DERIVE to its response (R7). -/
def Config.latDerive : Nat := Config.latDeriveAboveOne + 1

/-- `LAT_INFO`: cycles for LDINFO, RDINFO and rejected commands (R7). -/
def Config.latInfo : Nat := Config.latInfoAboveOne + 1

/-- `II`: least number of cycles between two accepted commands (R7). -/
def Config.initiationInterval : Nat := Config.initiationAboveOne + 1

/-- How far the number of responses the unit can hold lies above its least value 1 (R103; log entry 11). -/
opaque Config.responsesAboveOne : Nat

/-- How far the number of accepted commands the unit can hold lies above its least value 1 (R103; log entry 11). -/
opaque Config.pipelineAboveOne : Nat

/-- How many responses the unit can hold before the host must take one (R103: "the host has not taken enough
responses"). At least 1, or no command could ever respond (R104). DEDUCED, log entry 11. -/
def Config.responseCapacity : Nat := Config.responsesAboveOne + 1

/-- How many accepted commands the unit can hold before it must perform one (R103: "its pipeline is full"). At least 1,
or no command could ever be accepted (R104). DEDUCED, log entry 11. -/
def Config.pipelineCapacity : Nat := Config.pipelineAboveOne + 1

end Sys2Proof
end

