-- ==== Sys2Proof/Syntax.lean ====
section
/-! DEFINITION. The commands of the unit: one constructor per row of spec/opcode_table.json (R42, R53), with the
operands 30_encoding.md R46 assembles. Beside it, the lines of the assembler (R50, R51), whose operands are numbers
that may not fit. -/
namespace Sys2Proof

/-- A command that decodes (R47). The operand words a command ignores (R45) are no part of it (DEDUCED, log
entry 13). -/
inductive Instr where
  /-- `DERIVE d`: derive the constants for divisor d and make them current (R58). -/
  | derive (d : Word32)
  /-- `LDINFO d, m, s`: load an info triple derived earlier (R73). -/
  | ldinfo (d : Word32) (m : Mult) (s : Shift)
  /-- `RDINFO`: read the info triple (R74). -/
  | rdinfo
  /-- `QUOT h`: quotient of the hash by the current divisor (R67). -/
  | quot (h : Word32)
  /-- `REM h`, also spelled `BIDX h`: remainder of the hash by the current divisor (R68, R51). -/
  | rem (h : Word32)
deriving DecidableEq, Repr

/-- One line of assembly after its numbers are read (R50, R51). The numbers are unbounded: a line may hold one that
does not fit its field, which the assembler refuses. -/
inductive AsmLine where
  | derive (d : Nat)
  | ldinfo (d m s : Nat)
  | rdinfo
  | quot (h : Nat)
  | rem (h : Nat)
  /-- `BIDX h`, the one pseudo-instruction (R51). -/
  | bidx (h : Nat)
  /-- `.raw w`: any 96-bit word, illegal ones too (R50). -/
  | raw (w : CmdWord)
deriving DecidableEq, Repr

end Sys2Proof
end

