-- ==== Sys2Proof/WellFormed.lean ====
section
/-! DEFINITION. Well-formedness (30_encoding.md R44 to R46, R50). Every term of `Instr` is well formed: its operands
have exactly the widths of their fields, and every value of a field decodes (an LDINFO shift of 33 to 63 too, which
fails in execution, R44). What can be ill formed is an assembler line, whose numbers may not fit. -/
namespace Sys2Proof

/-- The line's operands fit their fields: d and h below 2^32, m below 2^33, s below 64 (R50). A shift of 33 to 63
fits. -/
def AsmLine.wellFormed : AsmLine → Bool
  | .derive d => decide (d < 2 ^ 32)
  | .ldinfo d m s => decide (d < 2 ^ 32) && decide (m < 2 ^ 33) && decide (s < 64)
  | .rdinfo => true
  | .quot h => decide (h < 2 ^ 32)
  | .rem h => decide (h < 2 ^ 32)
  | .bidx h => decide (h < 2 ^ 32)
  | .raw _ => true

end Sys2Proof
end

