-- ==== Sys2Proof/Decode.lean ====
section
/-! DEFINITION. Command words: their fields (R40, R46), the decoder, total on every 96-bit word (R47, R48), the byte
order of a serialized word (20_memory.md R29), the encoder (R40, R42, R50) and the opcode table as masks and matches
(R53). -/
namespace Sys2Proof

/-! ## Fields of a command word -/

/-- `OP = CMD[7:0]` (R40). -/
def cmdOp (w : CmdWord) : BitVec 8 := w.extractLsb' 0 8

/-- `ASHF = CMD[13:8]` (R40). -/
def cmdAshf (w : CmdWord) : Shift := w.extractLsb' 8 6

/-- `AMUL32 = CMD[14]` (R40). -/
def cmdAmul32 (w : CmdWord) : BitVec 1 := w.extractLsb' 14 1

/-- The AUX bits `CMD[14:8]`, ASHF and AMUL32 together (R44). -/
def cmdAux (w : CmdWord) : BitVec 7 := w.extractLsb' 8 7

/-- `RSVD = CMD[31:15]` (R40, R43). -/
def cmdRsvd (w : CmdWord) : BitVec 17 := w.extractLsb' 15 17

/-- Operand A, `CMD[63:32]` (R40). -/
def cmdA (w : CmdWord) : Word32 := w.extractLsb' 32 32

/-- Operand B, `CMD[95:64]` (R40). -/
def cmdB (w : CmdWord) : Word32 := w.extractLsb' 64 32

/-- The multiplier operand `{CMD[14], CMD[63:32]}` (R46). -/
def cmdMult (w : CmdWord) : Mult := cmdAmul32 w ++ cmdA w

/-! ## Decode -/

/-- Why a word is no command. The spec has the one outcome `Illegal` (R47); the names only say which of R48's
cases holds (DESIGN CHOICE, log entry 12). -/
inductive DecodeError where
  /-- `CMD[31:15]` is not 0 (R43, R48). -/
  | reservedHeaderBits
  /-- AUX bits under DERIVE, RDINFO, QUOT or REM (R44, R48). -/
  | auxBits
  /-- Opcode 0x00, or 0x06 to 0xFF (R42, R48). -/
  | unassignedOpcode
  /-- Not the twelve bytes of one whole command word (R30, R39). -/
  | notOneWord
deriving DecidableEq, Repr

/-- `Decode` of R47, in the order the rule tests. -/
def decode (w : CmdWord) : Except DecodeError Instr :=
  if cmdRsvd w ≠ 0 then .error .reservedHeaderBits
  else if cmdOp w = 0x01 ∧ cmdAux w = 0 then .ok (.derive (cmdB w))
  else if cmdOp w = 0x02 then .ok (.ldinfo (cmdB w) (cmdMult w) (cmdAshf w))
  else if cmdOp w = 0x03 ∧ cmdAux w = 0 then .ok .rdinfo
  else if cmdOp w = 0x04 ∧ cmdAux w = 0 then .ok (.quot (cmdA w))
  else if cmdOp w = 0x05 ∧ cmdAux w = 0 then .ok (.rem (cmdA w))
  else if 0x01 ≤ cmdOp w ∧ cmdOp w ≤ 0x05 then .error .auxBits
  else .error .unassignedOpcode

/-! ## Serialized words -/

/-- The twelve bytes of a word, byte k being `word[8k+7:8k]`, byte 0 first (R29). -/
def wordToBytes (w : BitVec 96) : List Byte :=
  (List.range 12).map fun k => w.extractLsb' (8 * k) 8

/-- The number that bytes stand for, byte 0 the least significant (R29). -/
def bytesToNat : List Byte → Nat
  | [] => 0
  | b :: bs => b.toNat + 256 * bytesToNat bs

/-- The word that twelve bytes carry (R29). -/
def bytesToWord (bs : List Byte) : BitVec 96 := BitVec.ofNat 96 (bytesToNat bs)

/-- Decode of a serialized command: exactly one whole word is a command, nothing shorter is (R30, R39). -/
def decodeBytes (bs : List Byte) : Except DecodeError Instr :=
  if bs.length = 12 then decode (bytesToWord bs) else .error .notOneWord

/-- What the decoder reads from an instruction given as the opcode table numbers its bits: the low `nbits` bits of
`w`, every bit above them 0, serialized as R29 says. -/
def decodeTableWord (nbits w : Nat) : Option Instr :=
  (decodeBytes (wordToBytes (BitVec.ofNat 96 (w % 2 ^ nbits)))).toOption

/-! ## Encode -/

/-- A command word from its fields, most significant first (R40). -/
def cmdWord (b a : Word32) (rsvd : BitVec 17) (amul32 : BitVec 1) (ashf : Shift) (op : BitVec 8) : CmdWord :=
  b ++ a ++ rsvd ++ amul32 ++ ashf ++ op

/-- The word of a command, 0 in every field it ignores (R42, R50). -/
def encode : Instr → CmdWord
  | .derive d => cmdWord d 0 0 0 0 0x01
  | .ldinfo d m s => cmdWord d (m.extractLsb' 0 32) 0 (m.extractLsb' 32 1) s 0x02
  | .rdinfo => cmdWord 0 0 0 0 0 0x03
  | .quot h => cmdWord 0 h 0 0 0 0x04
  | .rem h => cmdWord 0 h 0 0 0 0x05

/-! ## The opcode table -/

/-- A row of spec/opcode_table.json: a word matches it when `(cmd AND mask) == match` (R53). -/
structure OpcodeRow where
  mnemonic : String
  pattern : CmdWord
  mask : CmdWord
deriving DecidableEq, Repr

/-- The five rows of spec/opcode_table.json, in its order. -/
def opcodeTable : List OpcodeRow :=
  [ ⟨"DERIVE", 0x000000000000000000000001, 0x0000000000000000FFFFFFFF⟩,
    ⟨"LDINFO", 0x000000000000000000000002, 0x0000000000000000FFFF80FF⟩,
    ⟨"RDINFO", 0x000000000000000000000003, 0x0000000000000000FFFFFFFF⟩,
    ⟨"QUOT", 0x000000000000000000000004, 0x0000000000000000FFFFFFFF⟩,
    ⟨"REM", 0x000000000000000000000005, 0x0000000000000000FFFFFFFF⟩ ]

/-- The word matches the row (R53). -/
def OpcodeRow.matchesWord (r : OpcodeRow) (w : CmdWord) : Bool := w &&& r.mask == r.pattern

/-- The one mnemonic of a command (R53). -/
def Instr.mnemonic : Instr → String
  | .derive _ => "DERIVE"
  | .ldinfo _ _ _ => "LDINFO"
  | .rdinfo => "RDINFO"
  | .quot _ => "QUOT"
  | .rem _ => "REM"

end Sys2Proof
end

