-- ==== Sys2Proof/Machine/Operands.lean ====
section
/-! DEFINITION. The functions of the datapath on operand values: divisor acceptance and the derivation (40_derive.md
R54 to R57, R60), the quotient and remainder datapaths (41_divmod.md R65, R66). All arithmetic is on natural numbers
(R9); a value loses bits only where a rule writes `trunc`. -/
namespace Sys2Proof.Machine

/-- `Acceptable(d)`: odd and at least 3 (R54). No primality test (R63). -/
def acceptable (d : Word32) : Bool := decide (d.toNat % 2 = 1) && decide (3 ≤ d.toNat)

/-- The greatest shift of a triple (R17, R57, R73). -/
def maxShift : Nat := 32

/-- `ceil_div(a, b)` (R9). -/
def ceilDiv (a b : Nat) : Nat := (a + b - 1) / b

/-- `Cand(d, s)` (R55). -/
def cand (d s : Nat) : Nat := ceilDiv (2 ^ (32 + s)) d

/-- `Exact(d, m, s)`: the formula is right for every 32-bit n (R56). This is the definition; `twoPointExact` decides
it. -/
def Exact (d m s : Nat) : Prop := ∀ n, n < 2 ^ 32 → (n * m) >>> (32 + s) = n / d

/-- The two boundary products of R60, with e = m*d - 2^K, Q = (2^32 - 1) div d and rN = (2^32 - 1) mod d. -/
def twoPointExact (d m s : Nat) : Bool :=
  let k := 2 ^ (32 + s)
  let e := m * d - k
  let q := (2 ^ 32 - 1) / d
  let rN := (2 ^ 32 - 1) % d
  decide (q * e + rN * m < k) && (decide (q = 0) || decide ((q - 1) * e + (d - 1) * m < k))

/-- `Derive(d)` as a relation, word for word R57: s is the least shift in 0..32 whose candidate is exact, and m is
that candidate. -/
def Derives (d m s : Nat) : Prop :=
  s ≤ maxShift ∧ m = cand d s ∧ Exact d m s ∧ ∀ t, t < s → ¬ Exact d (cand d t) t

/-- `Derive(d)` as a search over s = 0, 1, …, 32 (R57), with R60's test for exactness (R62: the method is free; DEDUCED,
log entry 5). `none` only where the search passes 32, which no accepted divisor reaches (R59). -/
def derive (d : Nat) : Option (Nat × Nat) :=
  ((List.range (maxShift + 1)).find? fun s => twoPointExact d (cand d s) s).map fun s => (cand d s, s)

/-- `QF(h, m, s)`: the exact 65-bit product, shifted right by 32 + s, truncated to 32 bits (R65). For s above 32,
which no run reaches, the same formula (DESIGN CHOICE, log entry 7). -/
def quotientOf (h : Word32) (m : Mult) (s : Shift) : Word32 :=
  BitVec.ofNat 32 ((h.toNat * m.toNat) >>> (32 + s.toNat))

/-- `RF(h, d, m, s)`: h - QF*d with product and difference each mod 2^32 (R66). -/
def remainderOf (h d : Word32) (m : Mult) (s : Shift) : Word32 :=
  BitVec.ofNat 32 (h.toNat + 2 ^ 32 - ((quotientOf h m s).toNat * d.toNat) % 2 ^ 32)

end Sys2Proof.Machine
end

