-- ==== Sys2Proof/Machine/Flags.lean ====
section
/-! DEFINITION. Status codes (60_exceptions.md R77) and the two flags of the unit, VLD and FIRSTERR (R22): how an
error changes each (R18, R84, R85). -/
namespace Sys2Proof.Machine

/-- The named statuses of R77. -/
inductive Status where
  /-- The command completed (R78). -/
  | ok
  /-- The divisor is even or 1 (R79). -/
  | invalidDivisor
  /-- Reserved: a conforming unit never produces it (R80), and no meaning raises it. -/
  | derivationInvariantViolation
  /-- Decode rejects the word (R81). -/
  | illegalCommand
  /-- A lookup with VLD = 0 (R82). -/
  | noInfo
  /-- LDINFO of an accepted divisor with a shift of 33 to 63 (R83). -/
  | invalidShift
deriving DecidableEq, Repr

/-- The 8-bit code of a status (R77). -/
def statusCode : Status → BitVec 8
  | .ok => 0x00
  | .invalidDivisor => 0x01
  | .derivationInvariantViolation => 0x02
  | .illegalCommand => 0x03
  | .noInfo => 0x04
  | .invalidShift => 0x05

/-- FIRSTERR after a command with the given status: the first failing status stays (R85). -/
def firstErrAfter (st : Status) (firstErr : BitVec 8) : BitVec 8 :=
  if st ≠ .ok ∧ firstErr = 0x00 then statusCode st else firstErr

/-- VLD after `raise E()`: INVALID_DIVISOR and INVALID_SHIFT clear it, the other codes leave it (R18, R84). -/
def vldAfterError (e : Status) (vld : Bool) : Bool :=
  match e with
  | .ok => vld
  | .invalidDivisor => false
  | .derivationInvariantViolation => vld
  | .illegalCommand => vld
  | .noInfo => vld
  | .invalidShift => false

end Sys2Proof.Machine
end

