-- ==== Sys2Proof/Machine/State.lean ====
section
/-! DEFINITION. The state of the unit (10_state.md R13 to R26), the transaction interface's queues (R23, R26, R30) and
the script of what happens at the interface, as plain data; what can stop a step; the state after reset. -/
namespace Sys2Proof.Machine

/-- One thing that happens at the transaction interface. The host, the platform's reset and the unit's own pace are
three agents; a list of events says in which order they move (DESIGN CHOICE, log entry 1). -/
inductive Event where
  /-- The host presents a whole command word, and the unit accepts it if its pipeline has room (R31, R39, R103). -/
  | command (w : CmdWord)
  /-- An interconnect carries the next byte of a command word (R29, R30). -/
  | commandByte (b : Byte)
  /-- The host presents a command word and the unit, for a reason of its own, does not accept it yet (R103: "may
refuse"). -/
  | stalled (w : CmdWord)
  /-- The unit performs the oldest command it has accepted, if it can hold the response (R34, R103). -/
  | perform
  /-- The host takes the oldest response (R35). -/
  | takeResponse
  /-- The platform delivers reset (R96). -/
  | reset
deriving DecidableEq, Repr

/-- The state. The first five fields are the architectural registers, all of them (R13). The next three are the
interface's contents: R23's hidden state, which R26 gives a reset value, and the part of a word that has arrived (R30).
The last two are the model's own: what the host has received so far, and what happens next. -/
structure State where
  /-- `DIV[31:0]`, the divisor of the current triple (R15). -/
  div : Word32
  /-- `MUL[32:0]`, the multiplier of the current triple (R16). -/
  mul : Mult
  /-- `SHF[5:0]`, the shift of the current triple, beside the fixed 32 (R17). -/
  shf : Shift
  /-- `VLD`: the triple is one a command has accepted (R18). -/
  vld : Bool
  /-- `FIRSTERR`: the status code of the first failed command since reset, or 0 (R19). -/
  firstErr : BitVec 8
  /-- Commands accepted and not yet performed, oldest first (R23). -/
  inFlight : List CmdWord
  /-- Responses the host has not taken, oldest first (R23, R35). -/
  undelivered : List RspWord
  /-- The bytes of a command word that has not arrived whole, byte 0 first (R30; DESIGN CHOICE, log entry 4). -/
  partialWord : List Byte
  /-- The model's own: every response the host has taken, oldest first (R98: "already delivered stays delivered";
  DESIGN CHOICE, log entry 10). -/
  delivered : List RspWord
  /-- The model's own: what happens at the interface next, in order. -/
  events : List Event
deriving DecidableEq, Repr

/-- What stops the machine. -/
inductive Fault where
  /-- Raised by DERIVE if the search of R57 passes shift 32 without an exact candidate. R59 proves that no accepted
  divisor reaches it (DESIGN CHOICE, log entry 6). Safe: a run that stops here proves nothing about the hardware. -/
  | derivationSearchExhausted
deriving DecidableEq, Repr

/-- What the model gives no meaning. -/
inductive Refusal where
  /-- Raised by an arm of `exec` that has no meaning yet; no arm raises it now. Safe. -/
  | notModelled (mnemonic : String)
deriving DecidableEq, Repr

/-- The unit right after reset (R26, R97): every register 0, nothing accepted, nothing undelivered, idle. -/
def State.reset : State where
  div := 0
  mul := 0
  shf := 0
  vld := false
  firstErr := 0x00
  inFlight := []
  undelivered := []
  partialWord := []
  delivered := []
  events := []

end Sys2Proof.Machine
end

