-- ==== Sys2Proof/Machine/Ops.lean ====
section
/-! DEFINITION. The named operations of a command on the state: the response word and its fields (30_encoding.md R41),
completing a command (R25, R85), loading the triple (R15 to R18), and `raise E()`, the one way an error is taken
(60_exceptions.md R84). The unit has no trap and so no return from one (R88, R89). -/
namespace Sys2Proof.Machine

/-- The response word of R41: `{ Y, X, 0x00, FIRSTERR', VLD', rmul32, rshf, st }`. -/
def rspWord (st : BitVec 8) (x y : Word32) (rshf : Shift) (rmul32 : BitVec 1) (vld : Bool) (firstErr : BitVec 8) :
    RspWord :=
  y ++ x ++ (0x00 : BitVec 8) ++ firstErr ++ BitVec.ofBool vld ++ rmul32 ++ rshf ++ st

/-- `STATUS = RSP[7:0]` (R41). -/
def rspStatus (r : RspWord) : BitVec 8 := r.extractLsb' 0 8

/-- `RSHF = RSP[13:8]` (R41). -/
def rspShf (r : RspWord) : Shift := r.extractLsb' 8 6

/-- `RMUL32 = RSP[14]` (R41). -/
def rspMul32 (r : RspWord) : BitVec 1 := r.extractLsb' 14 1

/-- `RVLD = RSP[15]` (R41). -/
def rspVld (r : RspWord) : BitVec 1 := r.extractLsb' 15 1

/-- `RFIRSTERR = RSP[23:16]` (R41). -/
def rspFirstErr (r : RspWord) : BitVec 8 := r.extractLsb' 16 8

/-- `RSP[31:24]`, always 0 (R41). -/
def rspZero (r : RspWord) : BitVec 8 := r.extractLsb' 24 8

/-- `X = RSP[63:32]` (R41). -/
def rspX (r : RspWord) : Word32 := r.extractLsb' 32 32

/-- `Y = RSP[95:64]` (R41). -/
def rspY (r : RspWord) : Word32 := r.extractLsb' 64 32

/-- `respond(st, X, Y, rshf, rmul32)`: emit the command's one response, with VLD and FIRSTERR as they stand after the
command's updates (R41). -/
def State.respond (s : State) (st : Status) (x y : Word32) (rshf : Shift) (rmul32 : BitVec 1) : State :=
  { s with undelivered := s.undelivered ++ [rspWord (statusCode st) x y rshf rmul32 s.vld s.firstErr] }

/-- The FIRSTERR update at the end of every command (R85). -/
def State.recordStatus (s : State) (st : Status) : State :=
  { s with firstErr := firstErrAfter st s.firstErr }

/-- The end of a command: FIRSTERR's update, then the response (R85, R41). -/
def State.complete (s : State) (st : Status) (x y : Word32) (rshf : Shift) (rmul32 : BitVec 1) : State :=
  (s.recordStatus st).respond st x y rshf rmul32

/-- `raise E()` (R84): the VLD write its rule lists for E, FIRSTERR's update, and the response
`respond(E, 0, 0, 0, 0)`. No other register changes, and the unit goes on. -/
def State.raiseError (s : State) (e : Status) : State :=
  ({ s with vld := vldAfterError e s.vld } : State).complete e 0 0 0 0

/-- DIV, MUL and SHF take a triple and VLD becomes 1, all at once (R18, R25). -/
def State.loadTriple (s : State) (d : Word32) (m : Mult) (sh : Shift) : State :=
  { s with div := d, mul := m, shf := sh, vld := true }

/-- Complete with OK, showing the triple as DERIVE and RDINFO do: X = MUL[31:0], Y = DIV, rshf = SHF,
rmul32 = MUL[32] (R41). -/
def State.completeWithTriple (s : State) : State :=
  s.complete .ok (s.mul.extractLsb' 0 32) s.div s.shf (s.mul.extractLsb' 32 1)

/-- Complete with OK and one result in X (R41: LDINFO with 0, QUOT, REM). -/
def State.completeWithX (s : State) (x : Word32) : State :=
  s.complete .ok x 0 0 0

end Sys2Proof.Machine
end

