-- ==== Sys2Proof/Machine/Derive.lean ====
section
/-! DEFINITION. The derivation command DERIVE (40_derive.md R58). -/
namespace Sys2Proof.Machine

/-- DERIVE d (R58): reject an unacceptable divisor with INVALID_DIVISOR; else derive (m, s), load the triple and
respond with it. m fits 33 bits and s fits 6 by R59. -/
def execDerive (d : Word32) (s : State) : Host.Outcome State Fault Refusal :=
  if acceptable d = false then .next (s.raiseError .invalidDivisor)
  else
    match derive d.toNat with
    | some (m, sh) => .next (s.loadTriple d (BitVec.ofNat 33 m) (BitVec.ofNat 6 sh)).completeWithTriple
    | none => .fault .derivationSearchExhausted

end Sys2Proof.Machine
end

