-- ==== Sys2Proof/Machine/Divmod.lean ====
section
/-! DEFINITION. The lookup commands QUOT and REM (41_divmod.md R67, R68). -/
namespace Sys2Proof.Machine

/-- QUOT h (R67): NO_INFO with VLD = 0; else QF of the loaded (MUL, SHF), whatever DIV holds. -/
def execQuot (h : Word32) (s : State) : Host.Outcome State Fault Refusal :=
  if s.vld = false then .next (s.raiseError .noInfo)
  else .next (s.completeWithX (quotientOf h s.mul s.shf))

/-- REM h (R68): NO_INFO with VLD = 0; else RF of the loaded triple, valid or not (R70). -/
def execRem (h : Word32) (s : State) : Host.Outcome State Fault Refusal :=
  if s.vld = false then .next (s.raiseError .noInfo)
  else .next (s.completeWithX (remainderOf h s.div s.mul s.shf))

end Sys2Proof.Machine
end

