-- ==== Sys2Proof/Machine/Info.lean ====
section
/-! DEFINITION. The info-triple transfer commands LDINFO and RDINFO (42_info.md R73, R74). -/
namespace Sys2Proof.Machine

/-- LDINFO d, m, s (R73): the divisor is checked first, then the shift (R86); the triple is not checked against the
derivation. -/
def execLdinfo (d : Word32) (m : Mult) (sh : Shift) (s : State) : Host.Outcome State Fault Refusal :=
  if acceptable d = false then .next (s.raiseError .invalidDivisor)
  else if maxShift < sh.toNat then .next (s.raiseError .invalidShift)
  else .next ((s.loadTriple d m sh).completeWithX 0)

/-- RDINFO (R74): show the triple, whatever VLD is; write no register. -/
def execRdinfo (s : State) : Host.Outcome State Fault Refusal :=
  .next s.completeWithTriple

end Sys2Proof.Machine
end

