-- ==== Sys2Proof/Machine/Dispatch.lean ====
section
/-! DEFINITION. The meaning of every command: one arm per row of spec/opcode_table.json. -/
namespace Sys2Proof.Machine

def exec (i : Instr) (s : State) : Host.Outcome State Fault Refusal :=
  match i with
  | .derive d => Sys2Proof.Machine.execDerive d s
  | .ldinfo d m sh => Sys2Proof.Machine.execLdinfo d m sh s
  | .rdinfo => Sys2Proof.Machine.execRdinfo s
  | .quot h => Sys2Proof.Machine.execQuot h s
  | .rem h => Sys2Proof.Machine.execRem h s

end Sys2Proof.Machine
end

