-- ==== Sys2Proof/Machine/Illegal.lean ====
section
/-! DEFINITION. What a word that decodes to no command does (60_exceptions.md R81): it is no row of the opcode table
and no constructor of `Instr`, yet it completes, with a status and a response. -/
namespace Sys2Proof.Machine

/-- `Illegal` (R47, R81): complete with ILLEGAL_COMMAND; VLD and the triple are unchanged. -/
def execIllegal (s : State) : Host.Outcome State Fault Refusal :=
  .next (s.raiseError .illegalCommand)

end Sys2Proof.Machine
end

