-- ==== Sys2Proof/Machine/Interface.lean ====
section
/-! DEFINITION. The transaction interface (20_memory.md R28 to R35, 70_reset_and_hazards.md R96 to R104): accepting
commands as far as there is room, performing them one at a time in order, delivering responses in order, and reset. -/
namespace Sys2Proof.Machine

/-- The spec's `Step(state, cmd)` (R11): decode the word and perform it, or complete it as illegal (R47, R81). -/
def performWord (w : CmdWord) (s : State) : Host.Outcome State Fault Refusal :=
  match decode w with
  | .ok i => exec i s
  | .error _ => execIllegal s

/-- The unit can hold one more response (R103): fewer than `Config.responseCapacity` are untaken. An empty buffer has
room whatever the capacity is. -/
def State.hasResponseRoom (s : State) : Bool :=
  match s.undelivered with
  | [] => true
  | _ :: rest => decide (rest.length < Config.responsesAboveOne)

/-- The unit can take one more command (R103): fewer than `Config.pipelineCapacity` are in flight. An empty pipeline has
room whatever the capacity is. -/
def State.hasPipelineRoom (s : State) : Bool :=
  match s.inFlight with
  | [] => true
  | _ :: rest => decide (rest.length < Config.pipelineAboveOne)

/-- Perform the oldest accepted command, which then is in flight no more (R34). With none, the unit is idle and its
registers hold (R95). While the host has not taken enough responses the unit is stalled, and its state does not change
(R103; DEDUCED, log entry 11). -/
def performNext (s : State) : Host.Outcome State Fault Refusal :=
  match s.inFlight with
  | [] => .next s
  | w :: rest => if s.hasResponseRoom then performWord w { s with inFlight := rest } else .next s

/-- A command that has arrived goes behind every command accepted before it (R34). With no room for it, it is not
accepted, and has no effect (R103). -/
def State.acceptWord (s : State) (w : CmdWord) : State :=
  if s.hasPipelineRoom then { s with inFlight := s.inFlight ++ [w] } else s

/-- One more byte of a command word arrives. The twelfth makes the word whole, and only then is there a command (R29,
R30); while the unit cannot accept that command, the byte is not taken (R103). DESIGN CHOICE, log entry 4. -/
def State.acceptByte (s : State) (b : Byte) : State :=
  if s.partialWord.length < 11 then { s with partialWord := s.partialWord ++ [b] }
  else if s.hasPipelineRoom then
    ({ s with partialWord := [] } : State).acceptWord (bytesToWord (s.partialWord ++ [b]))
  else s

/-- The host takes the oldest response; with none to take, nothing happens (R35; log entry 10). Reading a response has no effect on
the unit's registers (R31). -/
def State.deliver (s : State) : State :=
  match s.undelivered with
  | [] => s
  | r :: rest => { s with undelivered := rest, delivered := s.delivered ++ [r] }

/-- Reset (R96 to R98): every register to its reset value, commands in flight and undelivered responses discarded; a
delivered response stays delivered. The bytes of a word still arriving are dropped (DEDUCED, log entry 4). -/
def State.resetUnit (s : State) : State :=
  { State.reset with delivered := s.delivered, events := s.events }

/-- What one event does to a state from whose script it has been taken. A command that is not accepted has no effect
(R103; DEDUCED, log entry 11). -/
def runEvent (e : Event) (s : State) : Host.Outcome State Fault Refusal :=
  match e with
  | .command w => .next (s.acceptWord w)
  | .commandByte b => .next (s.acceptByte b)
  | .stalled _ => .next s
  | .perform => performNext s
  | .takeResponse => .next s.deliver
  | .reset => .next s.resetUnit

/-- One step of the machine: the next event of the script. When nothing more happens at the interface, the unit works
off what it has accepted (R104), as far as it can hold the responses, and then is idle (R95) or stalled for good (R103).
DESIGN CHOICE, log entries 1, 3 and 11. -/
def advance (s : State) : Host.Outcome State Fault Refusal :=
  match s.events with
  | [] => performNext s
  | e :: rest => runEvent e { s with events := rest }

/-- The host has taken every response, oldest first (R35). -/
def State.deliverAll (s : State) : State :=
  { s with undelivered := [], delivered := s.delivered ++ s.undelivered }

/-- The state in which `w` is the oldest accepted command and performing it is what happens next. If the unit could not
hold the response (R103), the host has taken those before it. -/
def State.presentNext (s : State) (w : CmdWord) : State :=
  let ready := if s.hasResponseRoom then s else s.deliverAll
  { ready with inFlight := w :: s.inFlight, events := .perform :: s.events }

end Sys2Proof.Machine
end

