-- ==== Sys2Proof/Machine/Step.lean ====
section
/-! DEFINITION. The step function, and the placing of a command word where the next step takes its command. -/
namespace Sys2Proof.Machine

/-- One step: the next event at the interface, or the unit working off what it has accepted. -/
def step (s : State) : Host.Outcome State Fault Refusal := advance s

/-- The instruction of the opcode table whose bits are the low `nbits` of `w`, presented so that the next step performs
exactly it. The unit has no program: the host's command stream is what runs (R21, R27; log entry 2). -/
def State.withFetchWord (s : State) (nbits w : Nat) : State :=
  s.presentNext (bytesToWord (wordToBytes (BitVec.ofNat 96 (w % 2 ^ nbits))))

end Sys2Proof.Machine
end

