-- ==== Sys2Proof/Machine/Assembler.lean ====
section
/-! DEFINITION. The assembler of 30_encoding.md R50 and R51: a line of text (as its list of characters) to an assembler
line, and an assembler line to a command word. What R50 leaves open of the text (spaces, letter case of digits, blank
lines) is a DESIGN CHOICE, log entry 9. -/
namespace Sys2Proof.Machine

/-- Why the assembler refuses a line. -/
inductive AsmError where
  /-- The mnemonic is none of R50's and R51's, or the operands are not those its form takes. -/
  | noSuchForm
  /-- An operand is not a number of R50. -/
  | badNumber
  /-- An operand does not fit its field (R50). -/
  | doesNotFit
deriving DecidableEq, Repr

/-! ## From a line to a word -/

/-- The word of a line (R50, R51), or a refusal where an operand does not fit. -/
def assemble (l : AsmLine) : Except AsmError CmdWord :=
  if l.wellFormed = false then .error .doesNotFit
  else
    match l with
    | .derive d => .ok (encode (.derive (BitVec.ofNat 32 d)))
    | .ldinfo d m s => .ok (encode (.ldinfo (BitVec.ofNat 32 d) (BitVec.ofNat 33 m) (BitVec.ofNat 6 s)))
    | .rdinfo => .ok (encode .rdinfo)
    | .quot h => .ok (encode (.quot (BitVec.ofNat 32 h)))
    | .rem h => .ok (encode (.rem (BitVec.ofNat 32 h)))
    | .bidx h => .ok (encode (.rem (BitVec.ofNat 32 h)))
    | .raw w => .ok w

/-! ## From text to a line -/

/-- A space or a tab. -/
def isBlank (c : Char) : Bool := c == ' ' || c == '\t'

/-- The text without the blanks at its ends. -/
def trim (cs : List Char) : List Char :=
  ((cs.dropWhile isBlank).reverse.dropWhile isBlank).reverse

/-- The text before a comment (R50: `;` starts a comment). -/
def beforeComment (cs : List Char) : List Char := cs.takeWhile (· != ';')

/-- The value of a digit in base 10 or 16, the hexadecimal letters in either case. -/
def digitValue (base : Nat) (c : Char) : Option Nat :=
  let v :=
    if '0' ≤ c ∧ c ≤ '9' then c.toNat - '0'.toNat
    else if 'a' ≤ c ∧ c ≤ 'f' then c.toNat - 'a'.toNat + 10
    else if 'A' ≤ c ∧ c ≤ 'F' then c.toNat - 'A'.toNat + 10
    else base
  if v < base then some v else none

/-- The number that digits stand for after the digits already read, the most significant first. -/
def readDigits (base : Nat) : Nat → List Char → Option Nat
  | acc, [] => some acc
  | acc, c :: cs =>
    match digitValue base c with
    | some v => readDigits base (acc * base + v) cs
    | none => none

/-- A number: decimal, or hexadecimal with `0x` (R50). -/
def readNumber (cs : List Char) : Option Nat :=
  match cs with
  | [] => none
  | ['0', 'x'] => none
  | '0' :: 'x' :: ds => readDigits 16 0 ds
  | c :: ds => readDigits 10 0 (c :: ds)

/-- The pieces of a text between commas. -/
def splitCommas : List Char → List (List Char)
  | [] => [[]]
  | c :: cs =>
    if c == ',' then [] :: splitCommas cs
    else
      match splitCommas cs with
      | [] => [[c]]
      | p :: ps => (c :: p) :: ps

/-- The operands of a line: none, or numbers separated by commas (R50). -/
def readOperands (cs : List Char) : Option (List Nat) :=
  match trim cs with
  | [] => some []
  | c :: rest => (splitCommas (c :: rest)).mapM fun piece => readNumber (trim piece)

/-- The word of a `.raw` line, `HHHHHHHH_HHHHHHHH_HHHHHHHH` (R8, R50); a `0x` before it is allowed, as
95_test_vectors.md writes it. -/
def readRaw (cs : List Char) : Option CmdWord :=
  let ds := match cs with
    | '0' :: 'x' :: rest => rest
    | other => other
  let digits := ds.filter (· != '_')
  if ds.length = 26 ∧ digits.length = 24 ∧ ds[8]? = some '_' ∧ ds[17]? = some '_' then
    (readDigits 16 0 digits).map (BitVec.ofNat 96)
  else none

/-- One line of text: a mnemonic, then its operands (R50). `none` for a line that holds nothing but a comment. -/
def readLine (text : List Char) : Except AsmError (Option AsmLine) :=
  let line := trim (beforeComment text)
  let mnemonic := line.takeWhile fun c => !isBlank c
  let rest := line.dropWhile fun c => !isBlank c
  match mnemonic with
  | [] => .ok none
  | ['.', 'r', 'a', 'w'] =>
    match readRaw (trim rest) with
    | some w => .ok (some (.raw w))
    | none => .error .badNumber
  | name =>
    match readOperands rest with
    | none => .error .badNumber
    | some operands =>
      match name, operands with
      | ['D', 'E', 'R', 'I', 'V', 'E'], [d] => .ok (some (.derive d))
      | ['L', 'D', 'I', 'N', 'F', 'O'], [d, m, s] => .ok (some (.ldinfo d m s))
      | ['R', 'D', 'I', 'N', 'F', 'O'], [] => .ok (some .rdinfo)
      | ['Q', 'U', 'O', 'T'], [h] => .ok (some (.quot h))
      | ['R', 'E', 'M'], [h] => .ok (some (.rem h))
      | ['B', 'I', 'D', 'X'], [h] => .ok (some (.bidx h))
      | _, _ => .error .noSuchForm

/-- The word a line of text assembles to; `none` for a line that holds no command. -/
def assembleText (text : List Char) : Except AsmError (Option CmdWord) :=
  match readLine text with
  | .error e => .error e
  | .ok none => .ok none
  | .ok (some l) => (assemble l).map some

end Sys2Proof.Machine
end

