-- ==== Sys2Proof/Machine/Timing.lean ====
section
/-! DEFINITION. The only timing the spec gives: which open parameter bounds which command (00_scope.md R7,
70_reset_and_hazards.md R104, R106). No value depends on it, and no step reads it (log entry 8). -/
namespace Sys2Proof.Machine

/-- The bound, in cycles, on the time from a command's acceptance to its response (R7, R104). That of QUOT and REM does
not depend on the hash, nor on the state (R106). -/
def latencyBound (w : CmdWord) : Nat :=
  match decode w with
  | .ok (.derive _) => Config.latDerive
  | .ok (.ldinfo _ _ _) => Config.latInfo
  | .ok .rdinfo => Config.latInfo
  | .ok (.quot _) => Config.latQr
  | .ok (.rem _) => Config.latQr
  | .error _ => Config.latInfo

end Sys2Proof.Machine
end

