-- ==== Sys2Proof/Safety.lean ====
section
/-! DEFINITION. What the statements are stated in terms of: legal states and responses (10_state.md R17 to R20,
60_exceptions.md R77), valid triples (40_derive.md R57), and runs of several commands (20_memory.md R34). -/
namespace Sys2Proof.Machine

/-- The status codes a conforming unit produces (R77). -/
def producedCodes : List (BitVec 8) := [0x00, 0x01, 0x03, 0x04, 0x05]

/-- The registers' legal values (R17, R20): SHF is at most 32, and with VLD = 1 the divisor is odd and at least 3. -/
def RegistersLegal (s : State) : Prop :=
  s.shf.toNat ≤ 32 ∧ (s.vld = true → s.div.toNat % 2 = 1 ∧ 3 ≤ s.div.toNat)

/-- A response a conforming unit can give (R41, R77, R84): a produced status, zeros in bits [31:24], a produced code in
RFIRSTERR, and for a failure no result and an RFIRSTERR that shows one. -/
def ResponseLegal (r : RspWord) : Prop :=
  rspStatus r ∈ producedCodes ∧ rspZero r = 0 ∧ rspFirstErr r ∈ producedCodes ∧
    (rspStatus r ≠ 0 →
      rspX r = 0 ∧ rspY r = 0 ∧ rspShf r = 0 ∧ rspMul32 r = 0 ∧ rspFirstErr r ≠ 0)

/-- The unit holds no more commands and responses than it can (R103). -/
def BuffersFit (s : State) : Prop :=
  s.undelivered.length ≤ Config.responseCapacity ∧ s.inFlight.length ≤ Config.pipelineCapacity

/-- The invariant of every state a run can reach: legal registers (R17, R20), a produced code in FIRSTERR (R19, R77),
legal responses, less than one whole word waiting to be assembled (R30), and no more held than fits (R103). -/
def Legal (s : State) : Prop :=
  RegistersLegal s ∧ s.firstErr ∈ producedCodes ∧ (∀ r ∈ s.undelivered, ResponseLegal r) ∧
    (∀ r ∈ s.delivered, ResponseLegal r) ∧ s.partialWord.length < 12 ∧ BuffersFit s

/-- A valid triple (R57): an accepted divisor with the constants DERIVE gives it. -/
def ValidTriple (d : Word32) (m : Mult) (sh : Shift) : Prop :=
  (d.toNat % 2 = 1 ∧ 3 ≤ d.toNat) ∧ Derives d.toNat m.toNat sh.toNat

/-- The triple in use, if one is, is valid (R20's last part, R76). -/
def TripleInUseValid (s : State) : Prop :=
  s.vld = true → ValidTriple s.div s.mul s.shf

/-- The architectural registers of two states agree (R13). -/
def SameRegisters (s t : State) : Prop :=
  s.div = t.div ∧ s.mul = t.mul ∧ s.shf = t.shf ∧ s.vld = t.vld ∧ s.firstErr = t.firstErr

/-- Every response given so far, taken or not, oldest first (R35). -/
def State.allResponses (s : State) : List RspWord := s.delivered ++ s.undelivered

/-- The fold of R34: commands performed one at a time in order, each on the state the one before it left. -/
def performAll : List CmdWord → State → Host.Outcome State Fault Refusal
  | [], s => .next s
  | w :: ws, s =>
    match performWord w s with
    | .next t => performAll ws t
    | .fault r => .fault r
    | .refused r => .refused r

/-- The command that the next step has the unit accept, if any: a whole word, or the word whose twelfth byte arrives (R29,
R30), if there is room for it (R103). -/
def acceptedNext (s : State) : List CmdWord :=
  match s.events with
  | .command w :: _ => if s.hasPipelineRoom then [w] else []
  | .commandByte b :: _ =>
    if s.hasPipelineRoom ∧ 11 ≤ s.partialWord.length then [bytesToWord (s.partialWord ++ [b])] else []
  | _ => []

/-- The commands the unit accepts in the next `k` steps, in order. -/
def acceptedIn : Nat → State → List CmdWord
  | 0, _ => []
  | k + 1, s =>
    acceptedNext s ++
      match step s with
      | .next t => acceptedIn k t
      | .fault _ => []
      | .refused _ => []

/-- A host that keeps taking responses (R104): `n` times it takes one, and the unit performs one command. -/
def keepTaking : Nat → List Event
  | 0 => []
  | n + 1 => .takeResponse :: .perform :: keepTaking n

/-- A safe step: the machine goes on, with no fault and no refusal (R84: the unit never halts or gets stuck on an error). A
stalled unit's step leaves its state as it is (R103). -/
def SafeStep (s : State) : Prop := ∃ t, step s = .next t

/-- The command word writes no register of the triple: it is a lookup, an RDINFO, or illegal (R13). -/
def LeavesTriple (w : CmdWord) : Prop :=
  match decode w with
  | .ok (.derive _) => False
  | .ok (.ldinfo _ _ _) => False
  | .ok .rdinfo => True
  | .ok (.quot _) => True
  | .ok (.rem _) => True
  | .error _ => True

end Sys2Proof.Machine
end

