-- ==== Sys2Proof/Certificates/Slice0/Obligations.lean ====
section
/-! DEFINITION. The statements about the unit, for the provers. Each docstring names the rules it formalises. A state
is any state at all, not one a run reaches, unless a premise says so. Where a statement gives the next state as
`{ s with … }`, every field not named there is unchanged: that is its frame. -/

open Sys2Proof Sys2Proof.Machine

/-! ## Encoding -/

/-- R40, R42, R46, R47, R50: every command, with every operand at every value, decodes from the word it encodes to; so
it does from the word's bytes in R29's order, and from its number as the opcode table numbers bits. -/
def Obligations.EncodeThenDecodeIsIdentity : Prop :=
  ∀ i : Instr, decode (encode i) = .ok i ∧ decodeBytes (wordToBytes (encode i)) = .ok i ∧
    decodeTableWord 96 (encode i).toNat = some i

/-- R29: byte k of a serialized word is `word[8k+7:8k]`, the bytes give the word back, and twelve bytes are the bytes of
the word they give. -/
def Obligations.SerializedWordsAreLittleEndian : Prop :=
  (∀ w : CmdWord, (wordToBytes w).length = 12 ∧
    (∀ k, k < 12 → (wordToBytes w)[k]? = some (w.extractLsb' (8 * k) 8)) ∧ bytesToWord (wordToBytes w) = w) ∧
  (∀ bs : List Byte, bs.length = 12 → wordToBytes (bytesToWord bs) = bs)

/-- R53: a word decodes exactly if it matches a row of the opcode table, and the rows it matches are those with its
command's one mnemonic. -/
def Obligations.WordDecodesIffItMatchesARow : Prop :=
  ∀ w : CmdWord,
    ((∃ i, decode w = .ok i) ↔ ∃ r ∈ opcodeTable, r.matchesWord w = true) ∧
    (∀ i, decode w = .ok i → ∀ r ∈ opcodeTable, r.matchesWord w = true ↔ r.mnemonic = i.mnemonic)

/-- R48: exactly the words of its three cases are illegal; each completes with ILLEGAL_COMMAND, changes no register but
FIRSTERR (by R85), and gets a response. -/
def Obligations.IllegalEncodingsCompleteWithIllegalCommand : Prop :=
  ∀ w : CmdWord,
    ((∃ e, decode w = .error e) ↔
      cmdOp w = 0x00 ∨ 0x06 ≤ cmdOp w ∨ w.extractLsb' 15 17 ≠ 0 ∨
        ((cmdOp w = 0x01 ∨ cmdOp w = 0x03 ∨ cmdOp w = 0x04 ∨ cmdOp w = 0x05) ∧ w.extractLsb' 8 7 ≠ 0)) ∧
    ∀ e, decode w = .error e → ∀ s : State,
      performWord w s = .next
        { s with
          firstErr := if s.firstErr = 0 then 0x03 else s.firstErr
          undelivered := s.undelivered ++
            [rspWord 0x03 0 0 0 0 s.vld (if s.firstErr = 0 then 0x03 else s.firstErr)] }

/-- R46: the operand values of a command, as numbers read off the number of its word. -/
def Obligations.DecodedOperandsAreTheWordsFields : Prop :=
  ∀ (w : CmdWord) (i : Instr), decode w = .ok i →
    match i with
    | .derive d => d.toNat = w.toNat / 2 ^ 64
    | .ldinfo d m s =>
      d.toNat = w.toNat / 2 ^ 64 ∧
        m.toNat = (w.toNat / 2 ^ 14 % 2) * 2 ^ 32 + w.toNat / 2 ^ 32 % 2 ^ 32 ∧
        s.toNat = w.toNat / 2 ^ 8 % 64
    | .rdinfo => True
    | .quot h => h.toNat = w.toNat / 2 ^ 32 % 2 ^ 32
    | .rem h => h.toNat = w.toNat / 2 ^ 32 % 2 ^ 32

/-- R45: two words with one header that differ only in an operand word their command ignores do the same in every
state. -/
def Obligations.IgnoredOperandWordsHaveNoEffect : Prop :=
  ∀ (w v : CmdWord) (s : State), w.extractLsb' 0 32 = v.extractLsb' 0 32 →
    ((cmdOp w = 0x01 ∧ cmdB w = cmdB v) ∨ cmdOp w = 0x03 ∨
      ((cmdOp w = 0x04 ∨ cmdOp w = 0x05) ∧ cmdA w = cmdA v)) →
    performWord w s = performWord v s

/-- R52: the five example commands of the spec and their words, each way. -/
def Obligations.ExampleWordsDecode : Prop :=
  ∀ p ∈ ([(.derive 7, 0x000000070000000000000001),
      (.ldinfo 7 0x124924925 3, 0x000000072492492500004302),
      (.rdinfo, 0x000000000000000000000003),
      (.quot 0xFFFFFFFF, 0x00000000FFFFFFFF00000004),
      (.rem 13, 0x000000000000000D00000005)] : List (Instr × CmdWord)),
    encode p.1 = p.2 ∧ decode p.2 = .ok p.1

/-- R50, R51: a line whose numbers fit assembles to a word with those numbers in its fields and 0 in every field its
command ignores; a line with a number that does not fit is refused; `BIDX h` is `REM h`. -/
def Obligations.AssemblerEncodesEveryFittingLine : Prop :=
  ∀ l : AsmLine,
    match l with
    | .derive d =>
      (d < 2 ^ 32 → ∃ w, assemble l = .ok w ∧ w.toNat = d * 2 ^ 64 + 0x01) ∧
        (2 ^ 32 ≤ d → assemble l = .error .doesNotFit)
    | .ldinfo d m s =>
      (d < 2 ^ 32 ∧ m < 2 ^ 33 ∧ s < 64 → ∃ w, assemble l = .ok w ∧
        w.toNat = d * 2 ^ 64 + m % 2 ^ 32 * 2 ^ 32 + m / 2 ^ 32 * 2 ^ 14 + s * 2 ^ 8 + 0x02) ∧
        (2 ^ 32 ≤ d ∨ 2 ^ 33 ≤ m ∨ 64 ≤ s → assemble l = .error .doesNotFit)
    | .rdinfo => ∃ w, assemble l = .ok w ∧ w.toNat = 0x03
    | .quot h =>
      (h < 2 ^ 32 → ∃ w, assemble l = .ok w ∧ w.toNat = h * 2 ^ 32 + 0x04) ∧
        (2 ^ 32 ≤ h → assemble l = .error .doesNotFit)
    | .rem h =>
      (h < 2 ^ 32 → ∃ w, assemble l = .ok w ∧ w.toNat = h * 2 ^ 32 + 0x05) ∧
        (2 ^ 32 ≤ h → assemble l = .error .doesNotFit)
    | .bidx h => assemble l = assemble (.rem h)
    | .raw w => assemble l = .ok w

/-! ## The step, the interface and reset -/

/-- R34, R47, R81: when the unit performs its oldest command (because the script says so, or because nothing more
happens at the interface) and can hold the response (R103), a word that decodes runs as its command on the state without
that word in flight, and a word that does not completes with ILLEGAL_COMMAND. (The script of events, accepting and
performing as two steps, and the room for responses are the model's way to hold the interface in a state: log entries 1,
3 and 11.) -/
def Obligations.StepPerformsTheOldestCommand : Prop :=
  ∀ (s : State) (w : CmdWord) (q : List CmdWord) (rest : List Event),
    s.inFlight = w :: q → (s.events = .perform :: rest ∨ (s.events = [] ∧ rest = [])) →
    s.undelivered.length < Config.responseCapacity →
    (∀ i, decode w = .ok i → step s = exec i { s with inFlight := q, events := rest }) ∧
    (∀ e, decode w = .error e → step s = .next
      { s with
        inFlight := q
        events := rest
        firstErr := if s.firstErr = 0 then 0x03 else s.firstErr
        undelivered := s.undelivered ++
          [rspWord 0x03 0 0 0 0 s.vld (if s.firstErr = 0 then 0x03 else s.firstErr)] })

/-- R34, R35, R103: an accepted command goes behind those accepted before it; a command that is not accepted, because the
unit refuses it or its pipeline is full, has no effect; a response is taken oldest first. (The script of events and the
room in the pipeline are the model's: log entries 1 and 11.) -/
def Obligations.CommandsAndResponsesKeepTheirOrder : Prop :=
  ∀ (s : State) (rest : List Event),
    (∀ w, s.events = .command w :: rest → s.inFlight.length < Config.pipelineCapacity →
      step s = .next { s with inFlight := s.inFlight ++ [w], events := rest }) ∧
    (∀ w, s.events = .command w :: rest → Config.pipelineCapacity ≤ s.inFlight.length →
      step s = .next { s with events := rest }) ∧
    (∀ w, s.events = .stalled w :: rest → step s = .next { s with events := rest }) ∧
    (∀ r rs, s.events = .takeResponse :: rest → s.undelivered = r :: rs →
      step s = .next { s with undelivered := rs, delivered := s.delivered ++ [r], events := rest })

/-- R30: a command word carried as bytes is accepted when its twelfth byte arrives, as the word R29 reads from them, if
the unit can take it (R103), and fewer bytes give no command and no response; while it cannot, the twelfth byte has no
effect. (That bytes arrive one event at a time, and what happens to the twelfth, is the model's: log entries 1, 4 and
11.) -/
def Obligations.PartialTransferGivesNoCommand : Prop :=
  (∀ (s : State) (w : CmdWord), s.partialWord = [] → s.inFlight.length < Config.pipelineCapacity →
    Sys2Proof.core.run 12 { s with events := (wordToBytes w).map Event.commandByte } =
      .next { s with inFlight := s.inFlight ++ [w], events := [] }) ∧
  (∀ (s : State) (bs : List Byte), s.partialWord.length + bs.length < 12 →
    Sys2Proof.core.run bs.length { s with events := bs.map Event.commandByte } =
      .next { s with partialWord := s.partialWord ++ bs, events := [] }) ∧
  (∀ (s : State) (b : Byte) (rest : List Event), s.events = .commandByte b :: rest →
    s.partialWord.length = 11 → Config.pipelineCapacity ≤ s.inFlight.length →
    step s = .next { s with events := rest })

/-- R26, R97, R98: reset puts every register at its reset value and discards every command in flight and every
undelivered response; a delivered response stays delivered. (That the bytes of a word still arriving are dropped too is
the model's, log entry 4, and is not stated here.) -/
def Obligations.ResetClearsRegistersAndDiscards : Prop :=
  (State.reset.div = 0 ∧ State.reset.mul = 0 ∧ State.reset.shf = 0 ∧ State.reset.vld = false ∧
    State.reset.firstErr = 0x00 ∧ State.reset.inFlight = [] ∧ State.reset.undelivered = []) ∧
  ∀ (s : State) (rest : List Event), s.events = .reset :: rest →
    ∃ t, step s = .next t ∧ t.div = 0 ∧ t.mul = 0 ∧ t.shf = 0 ∧ t.vld = false ∧ t.firstErr = 0x00 ∧
      t.inFlight = [] ∧ t.undelivered = [] ∧ t.delivered = s.delivered ∧ t.events = rest

/-- R99: the first command after reset, presented to a unit just reset: a lookup fails with NO_INFO, an RDINFO responds
with an all-zero word, a DERIVE of an accepted divisor succeeds. -/
def Obligations.FirstCommandAfterReset : Prop :=
  (∀ h, ∃ t, step (State.reset.presentNext (encode (.quot h))) = .next t ∧
    t.undelivered = [rspWord 0x04 0 0 0 0 false 0x04]) ∧
  (∀ h, ∃ t, step (State.reset.presentNext (encode (.rem h))) = .next t ∧
    t.undelivered = [rspWord 0x04 0 0 0 0 false 0x04]) ∧
  (∃ t, step (State.reset.presentNext (encode .rdinfo)) = .next t ∧ t.undelivered = [0]) ∧
  (∀ d : Word32, d.toNat % 2 = 1 → 3 ≤ d.toNat →
    ∃ t r, step (State.reset.presentNext (encode (.derive d))) = .next t ∧ t.undelivered = [r] ∧
      rspStatus r = 0x00 ∧ t.div = d ∧ t.vld = true)

/-- R95, R97: with nothing accepted and nothing happening at the interface the unit is idle, and every register holds. (The script of events is the model's: log
entry 1.) -/
def Obligations.IdleUnitHoldsItsState : Prop :=
  ∀ s : State, s.events = [] → s.inFlight = [] → step s = .next s

/-- R34, R35, R102: after any number of steps of a script of the interface with no reset in it, however it lets
acceptance, performing and delivery overlap and wherever the unit refuses or stalls, the commands in flight are the last
of those accepted, and the registers and the responses are those of the fold that performs all the others one at a time
in order. (The script of events, accepting and performing as two steps, what happens to the bytes of a word that has not
arrived whole, and the room for commands and responses are the model's: log entries 1, 3, 4 and 11.) -/
def Obligations.EveryScheduleIsTheSequentialFold : Prop :=
  ∀ (k : Nat) (s : State), Event.reset ∉ s.events →
    ∃ t done u,
      Sys2Proof.core.run k s = .next t ∧
        s.inFlight ++ acceptedIn k s = done ++ t.inFlight ∧
        performAll done s = .next u ∧ SameRegisters t u ∧ t.allResponses = u.allResponses

/-- R35, R104: while the host keeps taking responses, n accepted commands complete, in n turns of the host taking one and
the unit performing one, with n responses in order after those already given, as the fold of R34 gives them. (The script
of events and the room for responses are the model's: log entries 1 and 11.) -/
def Obligations.AcceptedCommandsComplete : Prop :=
  ∀ s : State, s.undelivered.length ≤ Config.responseCapacity → s.events = keepTaking s.inFlight.length →
    ∃ t u rs, Sys2Proof.core.run (2 * s.inFlight.length) s = .next t ∧ t.inFlight = [] ∧ t.events = [] ∧
      performAll s.inFlight s = .next u ∧ SameRegisters t u ∧ t.allResponses = u.allResponses ∧
      t.allResponses = s.allResponses ++ rs ∧ rs.length = s.inFlight.length

/-- R103: once the unit holds all the responses it can, a host that takes none stalls it for good: whatever else happens
at the interface short of a reset, and for however many steps, the registers and the responses do not change and no
command in flight completes; and when nothing else happens, nothing at all changes. (The script of events and the bound
on the responses held are the model's: log entries 1 and 11.) -/
def Obligations.HostThatTakesNoResponseStallsTheUnit : Prop :=
  ∀ (k : Nat) (s : State), Config.responseCapacity ≤ s.undelivered.length →
    (Event.reset ∉ s.events → Event.takeResponse ∉ s.events →
      ∃ t ws, Sys2Proof.core.run k s = .next t ∧ SameRegisters t s ∧ t.undelivered = s.undelivered ∧
        t.delivered = s.delivered ∧ t.inFlight = s.inFlight ++ ws) ∧
    (s.events = [] → Sys2Proof.core.run k s = .next s)

/-- R84: the unit never halts or gets stuck on an error: every state has a next state. In particular the fault that stands
for R57's unreachable end of the search is never raised. (A stalled unit's next state is the state it is in, R103.) -/
def Obligations.EveryStepGoesOn : Prop :=
  ∀ s : State, SafeStep s

/-! ## Responses, statuses and flags -/

/-- R35, R41: performing any command emits exactly one response, which shows VLD and FIRSTERR as they are afterwards and
zeros in bits [31:24]; the commands in flight, the script, the bytes waiting and the delivered responses stay. -/
def Obligations.EveryCommandGivesOneResponse : Prop :=
  ∀ (w : CmdWord) (s : State), ∃ t r, performWord w s = .next t ∧ t.undelivered = s.undelivered ++ [r] ∧
    r.extractLsb' 15 1 = BitVec.ofBool t.vld ∧ r.extractLsb' 16 8 = t.firstErr ∧ r.extractLsb' 24 8 = 0 ∧
    t.inFlight = s.inFlight ∧ t.events = s.events ∧ t.partialWord = s.partialWord ∧ t.delivered = s.delivered

/-- R86 with R77's codes: the one status a command reports, in R86's order of priority. -/
def Obligations.ReportedStatusFollowsPriority : Prop :=
  ∀ (w : CmdWord) (s : State), ∃ t r, performWord w s = .next t ∧ t.undelivered = s.undelivered ++ [r] ∧
    rspStatus r =
      match decode w with
      | .error _ => 0x03
      | .ok (.derive d) => if d.toNat % 2 = 1 ∧ 3 ≤ d.toNat then 0x00 else 0x01
      | .ok (.ldinfo d _ sh) =>
        if ¬ (d.toNat % 2 = 1 ∧ 3 ≤ d.toNat) then 0x01 else if 32 < sh.toNat then 0x05 else 0x00
      | .ok .rdinfo => 0x00
      | .ok (.quot _) => if s.vld = false then 0x04 else 0x00
      | .ok (.rem _) => if s.vld = false then 0x04 else 0x00

/-- R84: a command that reports an error leaves DIV, MUL and SHF, clears VLD exactly for INVALID_DIVISOR and
INVALID_SHIFT, and responds with the code and no result. -/
def Obligations.ErrorsArePrecise : Prop :=
  ∀ (w : CmdWord) (s t : State) (r : RspWord),
    performWord w s = .next t → t.undelivered = s.undelivered ++ [r] → rspStatus r ≠ 0x00 →
    t.div = s.div ∧ t.mul = s.mul ∧ t.shf = s.shf ∧
      t.vld = (if rspStatus r = 0x01 ∨ rspStatus r = 0x05 then false else s.vld) ∧
      r = rspWord (rspStatus r) 0 0 0 0 t.vld t.firstErr

/-- R85: FIRSTERR takes the status of a failing command if it held 0, and otherwise keeps its value; its value after the
update is in RFIRSTERR of the same response. -/
def Obligations.FirstErrUpdateRule : Prop :=
  ∀ (w : CmdWord) (s t : State) (r : RspWord),
    performWord w s = .next t → t.undelivered = s.undelivered ++ [r] →
    t.firstErr = (if rspStatus r ≠ 0x00 ∧ s.firstErr = 0x00 then rspStatus r else s.firstErr) ∧
      rspFirstErr r = t.firstErr

/-- R19, R85: once FIRSTERR is not 0, no step but a reset changes it. -/
def Obligations.OnlyResetClearsFirstErr : Prop :=
  ∀ s t : State, step s = .next t → s.firstErr ≠ 0x00 → s.events.head? ≠ some .reset →
    t.firstErr = s.firstErr

/-- R18: VLD after a command is whether it succeeded, for a DERIVE or LDINFO; every other command and every illegal word
leaves it; reset clears it. -/
def Obligations.VldRule : Prop :=
  (∀ (w : CmdWord) (s t : State) (r : RspWord),
    performWord w s = .next t → t.undelivered = s.undelivered ++ [r] →
    t.vld =
      match decode w with
      | .ok (.derive _) => decide (rspStatus r = 0x00)
      | .ok (.ldinfo _ _ _) => decide (rspStatus r = 0x00)
      | .ok .rdinfo => s.vld
      | .ok (.quot _) => s.vld
      | .ok (.rem _) => s.vld
      | .error _ => s.vld) ∧
  ∀ s : State, s.resetUnit.vld = false

/-- R13, R15 to R17: DIV, MUL and SHF change only by a DERIVE or LDINFO that completes with OK. -/
def Obligations.OnlyOkDeriveOrLdinfoWritesTheTriple : Prop :=
  ∀ (w : CmdWord) (s t : State) (r : RspWord),
    performWord w s = .next t → t.undelivered = s.undelivered ++ [r] →
    (t.div ≠ s.div ∨ t.mul ≠ s.mul ∨ t.shf ≠ s.shf) →
    rspStatus r = 0x00 ∧
      ((∃ d, decode w = .ok (.derive d)) ∨ ∃ d m sh, decode w = .ok (.ldinfo d m sh))

/-- R22, R23, R61, R71: the new registers and the response of a command depend on the registers and the command word
alone, on nothing hidden. -/
def Obligations.ResponsesDependOnRegistersAlone : Prop :=
  ∀ (w : CmdWord) (s u : State), SameRegisters s u →
    ∃ t v r, performWord w s = .next t ∧ performWord w u = .next v ∧ SameRegisters t v ∧
      t.undelivered = s.undelivered ++ [r] ∧ v.undelivered = u.undelivered ++ [r]

/-- R31, R71: an RDINFO, and a QUOT or REM that succeeds, writes no register, and a second one gives the same response
and leaves the same registers. -/
def Obligations.ReadsAreIdempotent : Prop :=
  ∀ (i : Instr) (s : State), (i = .rdinfo ∨ (s.vld = true ∧ ∃ h, i = .quot h ∨ i = .rem h)) →
    ∃ t u r, exec i s = .next t ∧ exec i t = .next u ∧ SameRegisters s t ∧ SameRegisters t u ∧
      t.undelivered = s.undelivered ++ [r] ∧ u.undelivered = s.undelivered ++ [r, r]

/-! ## Derivation -/

/-- R60: for a candidate that is not too small, the two boundary products decide exactness over all 2^32 inputs. The last
clause says that the test the machine runs is this criterion, which is the model's method (log entry 5). -/
def Obligations.TwoPointCriterionDecidesExactness : Prop :=
  ∀ d m s : Nat, 1 ≤ d → s ≤ 32 → 2 ^ (32 + s) ≤ m * d →
    (Exact d m s ↔
      ((2 ^ 32 - 1) / d * (m * d - 2 ^ (32 + s)) + (2 ^ 32 - 1) % d * m < 2 ^ (32 + s) ∧
        ((2 ^ 32 - 1) / d = 0 ∨
          ((2 ^ 32 - 1) / d - 1) * (m * d - 2 ^ (32 + s)) + (d - 1) * m < 2 ^ (32 + s)))) ∧
    (twoPointExact d m s = true ↔ Exact d m s)

/-- R57, R62: for every accepted divisor the search the machine runs finds exactly the pair of R57's definition. (The
search is the model's method: log entry 5.) -/
def Obligations.DeriveSearchFindsTheDefinedPair : Prop :=
  ∀ d m s : Nat, d % 2 = 1 → 3 ≤ d → d < 2 ^ 32 → (derive d = some (m, s) ↔ Derives d m s)

/-- R59: for every accepted divisor the derivation returns, with a shift at most the divisor's bit length l and a
multiplier from 1 to 2^33 - 1. -/
def Obligations.DerivationReturnsWithinItsBounds : Prop :=
  ∀ d l : Nat, d % 2 = 1 → 3 ≤ d → d < 2 ^ 32 → 2 ^ (l - 1) < d → d < 2 ^ l →
    ∃ m s, derive d = some (m, s) ∧ Derives d m s ∧ s ≤ l ∧ 2 ≤ l ∧ l ≤ 32 ∧ 1 ≤ m ∧ m ≤ 2 ^ 33 - 1

/-- R64: below a derived shift the candidate is not exact, and it fails at one of R60's two boundary points. -/
def Obligations.ShiftBelowTheDerivedOneFails : Prop :=
  ∀ d m s : Nat, d % 2 = 1 → 3 ≤ d → d < 2 ^ 32 → derive d = some (m, s) → 1 ≤ s →
    ∃ n, n < 2 ^ 32 ∧ (n = (2 ^ 32 - 1) / d * d - 1 ∨ n = 2 ^ 32 - 1) ∧
      (n * cand d (s - 1)) >>> (31 + s) ≠ n / d

/-- R58: DERIVE of an accepted divisor completes with the derived constants in MUL and SHF, the divisor in DIV, VLD 1,
and the triple in its response. -/
def Obligations.DeriveLoadsTheDerivedTriple : Prop :=
  ∀ (d : Word32) (s : State), d.toNat % 2 = 1 → 3 ≤ d.toNat →
    ∃ (m : Mult) (sh : Shift), Derives d.toNat m.toNat sh.toNat ∧
      exec (.derive d) s = .next
        { s with
          div := d
          mul := m
          shf := sh
          vld := true
          undelivered := s.undelivered ++
            [rspWord 0x00 (m.extractLsb' 0 32) d sh (m.extractLsb' 32 1) true s.firstErr] }

/-- R61: two DERIVEs of one divisor, in any two states, leave the same DIV, MUL, SHF and VLD, and responses that agree but
for RFIRSTERR. -/
def Obligations.DeriveDependsOnTheDivisorAlone : Prop :=
  ∀ (d : Word32) (s u : State), ∃ t v, exec (.derive d) s = .next t ∧ exec (.derive d) u = .next v ∧
    (d.toNat % 2 = 1 → 3 ≤ d.toNat →
      t.div = v.div ∧ t.mul = v.mul ∧ t.shf = v.shf ∧ t.vld = v.vld ∧
      ∃ x y rshf rmul32,
        t.undelivered = s.undelivered ++ [rspWord 0x00 x y rshf rmul32 t.vld t.firstErr] ∧
        v.undelivered = u.undelivered ++ [rspWord 0x00 x y rshf rmul32 v.vld v.firstErr])

/-- R54, R79: DERIVE and LDINFO of a divisor that is even, or 1, complete with INVALID_DIVISOR: VLD becomes 0, the triple
stays, FIRSTERR follows R85, and the response has no result. -/
def Obligations.BadDivisorIsRejected : Prop :=
  ∀ (d : Word32) (s : State), (d.toNat % 2 = 0 ∨ d.toNat = 1) →
    ∀ i : Instr, (i = .derive d ∨ ∃ m sh, i = .ldinfo d m sh) →
      exec i s = .next
        { s with
          vld := false
          firstErr := if s.firstErr = 0 then 0x01 else s.firstErr
          undelivered := s.undelivered ++
            [rspWord 0x01 0 0 0 0 false (if s.firstErr = 0 then 0x01 else s.firstErr)] }

/-! ## Info-triple transfer -/

/-- R73: LDINFO of an accepted divisor with a shift of at most 32 loads exactly the triple it carries, whatever the
multiplier, sets VLD and responds with no result. -/
def Obligations.LdinfoLoadsItsTriple : Prop :=
  ∀ (d : Word32) (m : Mult) (sh : Shift) (s : State), d.toNat % 2 = 1 → 3 ≤ d.toNat → sh.toNat ≤ 32 →
    exec (.ldinfo d m sh) s = .next
      { s with
        div := d
        mul := m
        shf := sh
        vld := true
        undelivered := s.undelivered ++ [rspWord 0x00 0 0 0 0 true s.firstErr] }

/-- R83: LDINFO of an accepted divisor with a shift of 33 to 63 completes with INVALID_SHIFT. -/
def Obligations.LdinfoRejectsShiftAbove32 : Prop :=
  ∀ (d : Word32) (m : Mult) (sh : Shift) (s : State), d.toNat % 2 = 1 → 3 ≤ d.toNat → 33 ≤ sh.toNat →
    exec (.ldinfo d m sh) s = .next
      { s with
        vld := false
        firstErr := if s.firstErr = 0 then 0x05 else s.firstErr
        undelivered := s.undelivered ++
          [rspWord 0x05 0 0 0 0 false (if s.firstErr = 0 then 0x05 else s.firstErr)] }

/-- R74: RDINFO shows the triple and VLD, whatever VLD is, and writes no register. -/
def Obligations.RdinfoShowsTheTriple : Prop :=
  ∀ s : State, exec .rdinfo s = .next
    { s with undelivered := s.undelivered ++
        [rspWord 0x00 (s.mul.extractLsb' 0 32) s.div s.shf (s.mul.extractLsb' 32 1) s.vld s.firstErr] }

/-- R75: the response of an RDINFO, or of a DERIVE that completed with OK, masked and with opcode 0x02, is an LDINFO of
exactly the triple then in the registers; if that DIV is accepted and that SHF at most 32, it restores the triple in
whatever state it is performed, with VLD 1; and both conditions hold in a state of R20 if the response shows
RVLD = 1. -/
def Obligations.SavedResponseReloadsItsTriple : Prop :=
  ∀ (i : Instr) (s t : State) (r : RspWord),
    (i = .rdinfo ∨ ∃ d, i = .derive d ∧ rspStatus r = 0x00) →
    exec i s = .next t → t.undelivered = s.undelivered ++ [r] →
    decode ((r &&& 0xFFFFFFFFFFFFFFFF00007F00) ||| 0x000000000000000000000002) =
        .ok (.ldinfo t.div t.mul t.shf) ∧
      (t.div.toNat % 2 = 1 → 3 ≤ t.div.toNat → t.shf.toNat ≤ 32 →
        ∀ u : State, ∃ v q,
          performWord ((r &&& 0xFFFFFFFFFFFFFFFF00007F00) ||| 0x000000000000000000000002) u = .next v ∧
          v.div = t.div ∧ v.mul = t.mul ∧ v.shf = t.shf ∧ v.vld = true ∧
          v.undelivered = u.undelivered ++ [q] ∧ rspStatus q = 0x00) ∧
      (RegistersLegal s → rspVld r = 1 → t.div.toNat % 2 = 1 ∧ 3 ≤ t.div.toNat ∧ t.shf.toNat ≤ 32)

/-- R76: after an LDINFO of a valid triple, QUOT and REM give h div d and h mod d for every h. -/
def Obligations.LdinfoOfValidTripleGivesExactLookups : Prop :=
  ∀ (d : Word32) (m : Mult) (sh : Shift) (s : State), ValidTriple d m sh →
    ∃ t, exec (.ldinfo d m sh) s = .next t ∧ ∀ h : Word32, ∃ u v,
      exec (.quot h) t = .next u ∧ exec (.rem h) t = .next v ∧
      u.undelivered = t.undelivered ++
        [rspWord 0x00 (BitVec.ofNat 32 (h.toNat / d.toNat)) 0 0 0 true s.firstErr] ∧
      v.undelivered = t.undelivered ++
        [rspWord 0x00 (BitVec.ofNat 32 (h.toNat % d.toNat)) 0 0 0 true s.firstErr]

/-! ## Lookup -/

/-- R65: the quotient datapath is bits [31:0] of the exact product shifted right by 32 + s. -/
def Obligations.QuotientDatapathFormula : Prop :=
  ∀ (h : Word32) (m : Mult) (s : Shift), s.toNat ≤ 32 →
    h.toNat * m.toNat < 2 ^ 65 ∧
      (quotientOf h m s).toNat = h.toNat * m.toNat / 2 ^ (32 + s.toNat) % 2 ^ 32

/-- R66: the remainder datapath is 32-bit wrap-around subtraction of the quotient times the divisor. -/
def Obligations.RemainderDatapathFormula : Prop :=
  ∀ (h d : Word32) (m : Mult) (s : Shift), s.toNat ≤ 32 →
    (remainderOf h d m s).toNat =
        (h.toNat + 2 ^ 32 - (quotientOf h m s).toNat * d.toNat % 2 ^ 32) % 2 ^ 32 ∧
      remainderOf h d m s = h - quotientOf h m s * d

/-- R67: QUOT with VLD = 1 (and SHF a legal shift, R17) responds with QF(h, MUL, SHF), whatever DIV holds, and changes no
register. -/
def Obligations.QuotRespondsWithTheQuotient : Prop :=
  ∀ (h : Word32) (s : State), s.vld = true → s.shf.toNat ≤ 32 →
    exec (.quot h) s = .next
      { s with undelivered := s.undelivered ++
          [rspWord 0x00 (BitVec.ofNat 32 (h.toNat * s.mul.toNat / 2 ^ (32 + s.shf.toNat))) 0 0 0 true
            s.firstErr] }

/-- R68: REM with VLD = 1 (and SHF a legal shift, R17) responds with RF(h, DIV, MUL, SHF), and changes no register. -/
def Obligations.RemRespondsWithTheRemainder : Prop :=
  ∀ (h : Word32) (s : State), s.vld = true → s.shf.toNat ≤ 32 →
    exec (.rem h) s = .next
      { s with undelivered := s.undelivered ++
          [rspWord 0x00
            (h - BitVec.ofNat 32 (h.toNat * s.mul.toNat / 2 ^ (32 + s.shf.toNat)) * s.div) 0 0 0 true
            s.firstErr] }

/-- R82: QUOT and REM with VLD = 0 complete with NO_INFO and compute nothing. -/
def Obligations.LookupWithoutTripleIsNoInfo : Prop :=
  ∀ (h : Word32) (s : State) (i : Instr), s.vld = false → (i = .quot h ∨ i = .rem h) →
    exec i s = .next
      { s with
        firstErr := if s.firstErr = 0 then 0x04 else s.firstErr
        undelivered := s.undelivered ++
          [rspWord 0x04 0 0 0 0 false (if s.firstErr = 0 then 0x04 else s.firstErr)] }

/-- R69: for a valid triple the datapaths are exact division: QF is h div d, at most 0x55555555, and RF is h mod d, below
d. -/
def Obligations.ValidTripleDividesExactly : Prop :=
  ∀ (d : Word32) (m : Mult) (sh : Shift), ValidTriple d m sh → ∀ h : Word32,
    (quotientOf h m sh).toNat = h.toNat / d.toNat ∧ h.toNat / d.toNat ≤ 0x55555555 ∧
      (remainderOf h d m sh).toNat = h.toNat % d.toNat ∧ h.toNat % d.toNat < d.toNat

/-- R58, R69, R34: after a DERIVE of an accepted divisor, and any commands that do not write the triple, illegal words
and failing commands among them, QUOT and REM answer h div d and h mod d for every h. -/
def Obligations.LookupsAfterDeriveAreExactDivision : Prop :=
  ∀ (d : Word32) (s : State) (ws : List CmdWord), d.toNat % 2 = 1 → 3 ≤ d.toNat →
    (∀ w ∈ ws, LeavesTriple w) →
    ∃ t u, exec (.derive d) s = .next t ∧ performAll ws t = .next u ∧ ∀ h : Word32, ∃ a b,
      exec (.quot h) u = .next a ∧ exec (.rem h) u = .next b ∧
      a.undelivered = u.undelivered ++
        [rspWord 0x00 (BitVec.ofNat 32 (h.toNat / d.toNat)) 0 0 0 true u.firstErr] ∧
      b.undelivered = u.undelivered ++
        [rspWord 0x00 (BitVec.ofNat 32 (h.toNat % d.toNat)) 0 0 0 true u.firstErr]

/-! ## Invariants -/

/-- R17, R19, R20, R30, R41, R77, R103: a step from a legal state leads to a legal state. (The bytes waiting for a whole
word, the list of delivered responses and the bounds on what is held are the model's: log entries 4, 10 and 11.) -/
def Obligations.StepKeepsLegal : Prop :=
  ∀ s t : State, Legal s → step s = .next t → Legal t

/-- R20, R26: the state after reset is legal. (As for `StepKeepsLegal`, some of it is about the model's fields and bounds.) -/
def Obligations.ResetIsLegal : Prop := Legal State.reset

/-- R20, R76: a triple in use stays valid under every command but an LDINFO of a triple that is not valid, which the unit
never checks. -/
def Obligations.TripleInUseStaysValid : Prop :=
  ∀ (w : CmdWord) (s t : State), TripleInUseValid s →
    (∀ d m sh, decode w = .ok (.ldinfo d m sh) → ValidTriple d m sh) →
    performWord w s = .next t → TripleInUseValid t

/-- R85, R101: a host that builds a catalog of divisors by DERIVEs, from a state with FIRSTERR = 0, finds FIRSTERR = 0 at
the end exactly if every divisor was accepted, and INVALID_DIVISOR otherwise. -/
def Obligations.FirstErrShowsAFailedCatalogBuild : Prop :=
  ∀ (ds : List Word32) (s : State), s.firstErr = 0x00 →
    ∃ t, performAll (ds.map fun d => encode (.derive d)) s = .next t ∧
      (t.firstErr = 0x00 ↔ ∀ d ∈ ds, d.toNat % 2 = 1 ∧ 3 ≤ d.toNat) ∧
      (t.firstErr = 0x00 ∨ t.firstErr = 0x01) ∧
      ∃ rs, t.undelivered = s.undelivered ++ rs ∧ rs.length = ds.length

/-! ## Timing -/

/-- R7, R106: every command's latency bound is at least 1, and that of QUOT and REM is one parameter, whatever the
hash. -/
def Obligations.LookupLatencyIgnoresOperands : Prop :=
  (∀ w, 1 ≤ latencyBound w) ∧
    ∀ h k : Word32, latencyBound (encode (.quot h)) = Config.latQr ∧
      latencyBound (encode (.rem k)) = Config.latQr
end

