-- ==== Sys2Proof/Laws/Fields.lean ====
section
/-! SUPPORT. The fields of a command word and of a response word built from its fields: one lemma per field. -/
namespace Sys2Proof.Machine

section CommandWord
variable (b a : Word32) (rsvd : BitVec 17) (amul32 : BitVec 1) (ashf : Shift) (op : BitVec 8)

@[simp] theorem cmdOp_cmdWord : cmdOp (cmdWord b a rsvd amul32 ashf op) = op := by
  unfold cmdOp cmdWord
  ext i hi
  simp only [BitVec.getElem_extractLsb', BitVec.getLsbD_append]
  grind

@[simp] theorem cmdAshf_cmdWord : cmdAshf (cmdWord b a rsvd amul32 ashf op) = ashf := by
  unfold cmdAshf cmdWord
  ext i hi
  simp only [BitVec.getElem_extractLsb', BitVec.getLsbD_append]
  grind

@[simp] theorem cmdAmul32_cmdWord : cmdAmul32 (cmdWord b a rsvd amul32 ashf op) = amul32 := by
  unfold cmdAmul32 cmdWord
  ext i hi
  simp only [BitVec.getElem_extractLsb', BitVec.getLsbD_append]
  grind

@[simp] theorem cmdRsvd_cmdWord : cmdRsvd (cmdWord b a rsvd amul32 ashf op) = rsvd := by
  unfold cmdRsvd cmdWord
  ext i hi
  simp only [BitVec.getElem_extractLsb', BitVec.getLsbD_append]
  grind

@[simp] theorem cmdA_cmdWord : cmdA (cmdWord b a rsvd amul32 ashf op) = a := by
  unfold cmdA cmdWord
  ext i hi
  simp only [BitVec.getElem_extractLsb', BitVec.getLsbD_append]
  grind

@[simp] theorem cmdB_cmdWord : cmdB (cmdWord b a rsvd amul32 ashf op) = b := by
  unfold cmdB cmdWord
  ext i hi
  simp only [BitVec.getElem_extractLsb', BitVec.getLsbD_append]
  grind

@[simp] theorem cmdAux_cmdWord : cmdAux (cmdWord b a rsvd amul32 ashf op) = amul32 ++ ashf := by
  unfold cmdAux cmdWord
  ext i hi
  simp only [BitVec.getElem_extractLsb', BitVec.getLsbD_append]
  grind

@[simp] theorem cmdMult_cmdWord : cmdMult (cmdWord b a rsvd amul32 ashf op) = amul32 ++ a := by
  simp [cmdMult]

end CommandWord

/-- A command word is its fields. -/
theorem cmdWord_fields (w : CmdWord) :
    cmdWord (cmdB w) (cmdA w) (cmdRsvd w) (cmdAmul32 w) (cmdAshf w) (cmdOp w) = w := by
  unfold cmdWord cmdB cmdA cmdRsvd cmdAmul32 cmdAshf cmdOp
  ext i hi
  simp only [BitVec.getElem_append, BitVec.getElem_extractLsb']
  grind

/-- A multiplier is the two parts an LDINFO carries it in (R46). -/
@[simp] theorem mult_parts (m : Mult) : (m.extractLsb' 32 1 ++ m.extractLsb' 0 32 : BitVec (1 + 32)) = m := by
  ext i hi
  simp only [BitVec.getElem_append, BitVec.getElem_extractLsb']
  grind

section ResponseWord
variable (st : BitVec 8) (x y : Word32) (rshf : Shift) (rmul32 : BitVec 1) (vld : Bool) (fe : BitVec 8)

@[simp] theorem rspStatus_rspWord : rspStatus (rspWord st x y rshf rmul32 vld fe) = st := by
  unfold rspStatus rspWord
  ext i hi
  simp only [BitVec.getElem_extractLsb', BitVec.getLsbD_append]
  grind

@[simp] theorem rspShf_rspWord : rspShf (rspWord st x y rshf rmul32 vld fe) = rshf := by
  unfold rspShf rspWord
  ext i hi
  simp only [BitVec.getElem_extractLsb', BitVec.getLsbD_append]
  grind

@[simp] theorem rspMul32_rspWord : rspMul32 (rspWord st x y rshf rmul32 vld fe) = rmul32 := by
  unfold rspMul32 rspWord
  ext i hi
  simp only [BitVec.getElem_extractLsb', BitVec.getLsbD_append]
  grind

@[simp] theorem rspVld_rspWord : rspVld (rspWord st x y rshf rmul32 vld fe) = BitVec.ofBool vld := by
  unfold rspVld rspWord
  ext i hi
  simp only [BitVec.getElem_extractLsb', BitVec.getLsbD_append]
  grind

@[simp] theorem rspFirstErr_rspWord : rspFirstErr (rspWord st x y rshf rmul32 vld fe) = fe := by
  unfold rspFirstErr rspWord
  ext i hi
  simp only [BitVec.getElem_extractLsb', BitVec.getLsbD_append]
  grind

@[simp] theorem rspZero_rspWord : rspZero (rspWord st x y rshf rmul32 vld fe) = 0 := by
  unfold rspZero rspWord
  ext i hi
  simp only [BitVec.getElem_extractLsb', BitVec.getLsbD_append]
  grind

@[simp] theorem rspX_rspWord : rspX (rspWord st x y rshf rmul32 vld fe) = x := by
  unfold rspX rspWord
  ext i hi
  simp only [BitVec.getElem_extractLsb', BitVec.getLsbD_append]
  grind

@[simp] theorem rspY_rspWord : rspY (rspWord st x y rshf rmul32 vld fe) = y := by
  unfold rspY rspWord
  ext i hi
  simp only [BitVec.getElem_extractLsb', BitVec.getLsbD_append]
  grind

end ResponseWord

end Sys2Proof.Machine
end

