-- ==== Sys2Proof/Laws/State.lean ====
section
/-! SUPPORT. What each update of the state leaves in each field: one lemma per field per update, so that no later
proof unfolds a record update. -/
namespace Sys2Proof.Machine

/-! ### respond -/

@[simp] theorem State.respond_div (s : State) (st : Status) (x y : Word32) (rshf : Shift) (rmul32 : BitVec 1) :
    (s.respond st x y rshf rmul32).div = s.div := rfl
@[simp] theorem State.respond_mul (s : State) (st : Status) (x y : Word32) (rshf : Shift) (rmul32 : BitVec 1) :
    (s.respond st x y rshf rmul32).mul = s.mul := rfl
@[simp] theorem State.respond_shf (s : State) (st : Status) (x y : Word32) (rshf : Shift) (rmul32 : BitVec 1) :
    (s.respond st x y rshf rmul32).shf = s.shf := rfl
@[simp] theorem State.respond_vld (s : State) (st : Status) (x y : Word32) (rshf : Shift) (rmul32 : BitVec 1) :
    (s.respond st x y rshf rmul32).vld = s.vld := rfl
@[simp] theorem State.respond_firstErr (s : State) (st : Status) (x y : Word32) (rshf : Shift) (rmul32 : BitVec 1) :
    (s.respond st x y rshf rmul32).firstErr = s.firstErr := rfl
@[simp] theorem State.respond_inFlight (s : State) (st : Status) (x y : Word32) (rshf : Shift) (rmul32 : BitVec 1) :
    (s.respond st x y rshf rmul32).inFlight = s.inFlight := rfl
@[simp] theorem State.respond_undelivered (s : State) (st : Status) (x y : Word32) (rshf : Shift) (rmul32 : BitVec 1) :
    (s.respond st x y rshf rmul32).undelivered = s.undelivered ++ [rspWord (statusCode st) x y rshf rmul32 s.vld s.firstErr] := rfl
@[simp] theorem State.respond_partialWord (s : State) (st : Status) (x y : Word32) (rshf : Shift) (rmul32 : BitVec 1) :
    (s.respond st x y rshf rmul32).partialWord = s.partialWord := rfl
@[simp] theorem State.respond_delivered (s : State) (st : Status) (x y : Word32) (rshf : Shift) (rmul32 : BitVec 1) :
    (s.respond st x y rshf rmul32).delivered = s.delivered := rfl
@[simp] theorem State.respond_events (s : State) (st : Status) (x y : Word32) (rshf : Shift) (rmul32 : BitVec 1) :
    (s.respond st x y rshf rmul32).events = s.events := rfl

/-! ### recordStatus -/

@[simp] theorem State.recordStatus_div (s : State) (st : Status) : (s.recordStatus st).div = s.div := rfl
@[simp] theorem State.recordStatus_mul (s : State) (st : Status) : (s.recordStatus st).mul = s.mul := rfl
@[simp] theorem State.recordStatus_shf (s : State) (st : Status) : (s.recordStatus st).shf = s.shf := rfl
@[simp] theorem State.recordStatus_vld (s : State) (st : Status) : (s.recordStatus st).vld = s.vld := rfl
@[simp] theorem State.recordStatus_firstErr (s : State) (st : Status) :
    (s.recordStatus st).firstErr = firstErrAfter st s.firstErr := rfl
@[simp] theorem State.recordStatus_inFlight (s : State) (st : Status) :
    (s.recordStatus st).inFlight = s.inFlight := rfl
@[simp] theorem State.recordStatus_undelivered (s : State) (st : Status) :
    (s.recordStatus st).undelivered = s.undelivered := rfl
@[simp] theorem State.recordStatus_partialWord (s : State) (st : Status) :
    (s.recordStatus st).partialWord = s.partialWord := rfl
@[simp] theorem State.recordStatus_delivered (s : State) (st : Status) :
    (s.recordStatus st).delivered = s.delivered := rfl
@[simp] theorem State.recordStatus_events (s : State) (st : Status) : (s.recordStatus st).events = s.events := rfl

/-! ### complete -/

@[simp] theorem State.complete_div (s : State) (st : Status) (x y : Word32) (rshf : Shift) (rmul32 : BitVec 1) :
    (s.complete st x y rshf rmul32).div = s.div := rfl
@[simp] theorem State.complete_mul (s : State) (st : Status) (x y : Word32) (rshf : Shift) (rmul32 : BitVec 1) :
    (s.complete st x y rshf rmul32).mul = s.mul := rfl
@[simp] theorem State.complete_shf (s : State) (st : Status) (x y : Word32) (rshf : Shift) (rmul32 : BitVec 1) :
    (s.complete st x y rshf rmul32).shf = s.shf := rfl
@[simp] theorem State.complete_vld (s : State) (st : Status) (x y : Word32) (rshf : Shift) (rmul32 : BitVec 1) :
    (s.complete st x y rshf rmul32).vld = s.vld := rfl
@[simp] theorem State.complete_firstErr (s : State) (st : Status) (x y : Word32) (rshf : Shift) (rmul32 : BitVec 1) :
    (s.complete st x y rshf rmul32).firstErr = firstErrAfter st s.firstErr := rfl
@[simp] theorem State.complete_inFlight (s : State) (st : Status) (x y : Word32) (rshf : Shift) (rmul32 : BitVec 1) :
    (s.complete st x y rshf rmul32).inFlight = s.inFlight := rfl
@[simp] theorem State.complete_undelivered (s : State) (st : Status) (x y : Word32) (rshf : Shift) (rmul32 : BitVec 1) :
    (s.complete st x y rshf rmul32).undelivered = s.undelivered ++ [rspWord (statusCode st) x y rshf rmul32 s.vld (firstErrAfter st s.firstErr)] := rfl
@[simp] theorem State.complete_partialWord (s : State) (st : Status) (x y : Word32) (rshf : Shift) (rmul32 : BitVec 1) :
    (s.complete st x y rshf rmul32).partialWord = s.partialWord := rfl
@[simp] theorem State.complete_delivered (s : State) (st : Status) (x y : Word32) (rshf : Shift) (rmul32 : BitVec 1) :
    (s.complete st x y rshf rmul32).delivered = s.delivered := rfl
@[simp] theorem State.complete_events (s : State) (st : Status) (x y : Word32) (rshf : Shift) (rmul32 : BitVec 1) :
    (s.complete st x y rshf rmul32).events = s.events := rfl

/-! ### raiseError -/

@[simp] theorem State.raiseError_div (s : State) (e : Status) : (s.raiseError e).div = s.div := rfl
@[simp] theorem State.raiseError_mul (s : State) (e : Status) : (s.raiseError e).mul = s.mul := rfl
@[simp] theorem State.raiseError_shf (s : State) (e : Status) : (s.raiseError e).shf = s.shf := rfl
@[simp] theorem State.raiseError_vld (s : State) (e : Status) : (s.raiseError e).vld = vldAfterError e s.vld := rfl
@[simp] theorem State.raiseError_firstErr (s : State) (e : Status) :
    (s.raiseError e).firstErr = firstErrAfter e s.firstErr := rfl
@[simp] theorem State.raiseError_inFlight (s : State) (e : Status) : (s.raiseError e).inFlight = s.inFlight := rfl
@[simp] theorem State.raiseError_undelivered (s : State) (e : Status) :
    (s.raiseError e).undelivered = s.undelivered ++
      [rspWord (statusCode e) 0 0 0 0 (vldAfterError e s.vld) (firstErrAfter e s.firstErr)] := rfl
@[simp] theorem State.raiseError_partialWord (s : State) (e : Status) :
    (s.raiseError e).partialWord = s.partialWord := rfl
@[simp] theorem State.raiseError_delivered (s : State) (e : Status) : (s.raiseError e).delivered = s.delivered := rfl
@[simp] theorem State.raiseError_events (s : State) (e : Status) : (s.raiseError e).events = s.events := rfl

/-! ### loadTriple -/

@[simp] theorem State.loadTriple_div (s : State) (d : Word32) (m : Mult) (sh : Shift) :
    (s.loadTriple d m sh).div = d := rfl
@[simp] theorem State.loadTriple_mul (s : State) (d : Word32) (m : Mult) (sh : Shift) :
    (s.loadTriple d m sh).mul = m := rfl
@[simp] theorem State.loadTriple_shf (s : State) (d : Word32) (m : Mult) (sh : Shift) :
    (s.loadTriple d m sh).shf = sh := rfl
@[simp] theorem State.loadTriple_vld (s : State) (d : Word32) (m : Mult) (sh : Shift) :
    (s.loadTriple d m sh).vld = true := rfl
@[simp] theorem State.loadTriple_firstErr (s : State) (d : Word32) (m : Mult) (sh : Shift) :
    (s.loadTriple d m sh).firstErr = s.firstErr := rfl
@[simp] theorem State.loadTriple_inFlight (s : State) (d : Word32) (m : Mult) (sh : Shift) :
    (s.loadTriple d m sh).inFlight = s.inFlight := rfl
@[simp] theorem State.loadTriple_undelivered (s : State) (d : Word32) (m : Mult) (sh : Shift) :
    (s.loadTriple d m sh).undelivered = s.undelivered := rfl
@[simp] theorem State.loadTriple_partialWord (s : State) (d : Word32) (m : Mult) (sh : Shift) :
    (s.loadTriple d m sh).partialWord = s.partialWord := rfl
@[simp] theorem State.loadTriple_delivered (s : State) (d : Word32) (m : Mult) (sh : Shift) :
    (s.loadTriple d m sh).delivered = s.delivered := rfl
@[simp] theorem State.loadTriple_events (s : State) (d : Word32) (m : Mult) (sh : Shift) :
    (s.loadTriple d m sh).events = s.events := rfl

/-! ### completeWithTriple -/

@[simp] theorem State.completeWithTriple_div (s : State) : s.completeWithTriple.div = s.div := rfl
@[simp] theorem State.completeWithTriple_mul (s : State) : s.completeWithTriple.mul = s.mul := rfl
@[simp] theorem State.completeWithTriple_shf (s : State) : s.completeWithTriple.shf = s.shf := rfl
@[simp] theorem State.completeWithTriple_vld (s : State) : s.completeWithTriple.vld = s.vld := rfl
@[simp] theorem State.completeWithTriple_firstErr (s : State) : s.completeWithTriple.firstErr = s.firstErr := rfl
@[simp] theorem State.completeWithTriple_inFlight (s : State) : s.completeWithTriple.inFlight = s.inFlight := rfl
@[simp] theorem State.completeWithTriple_undelivered (s : State) :
    s.completeWithTriple.undelivered = s.undelivered ++
      [rspWord 0 (s.mul.extractLsb' 0 32) s.div s.shf (s.mul.extractLsb' 32 1) s.vld s.firstErr] := rfl
@[simp] theorem State.completeWithTriple_partialWord (s : State) :
    s.completeWithTriple.partialWord = s.partialWord := rfl
@[simp] theorem State.completeWithTriple_delivered (s : State) : s.completeWithTriple.delivered = s.delivered := rfl
@[simp] theorem State.completeWithTriple_events (s : State) : s.completeWithTriple.events = s.events := rfl

/-! ### completeWithX -/

@[simp] theorem State.completeWithX_div (s : State) (x : Word32) : (s.completeWithX x).div = s.div := rfl
@[simp] theorem State.completeWithX_mul (s : State) (x : Word32) : (s.completeWithX x).mul = s.mul := rfl
@[simp] theorem State.completeWithX_shf (s : State) (x : Word32) : (s.completeWithX x).shf = s.shf := rfl
@[simp] theorem State.completeWithX_vld (s : State) (x : Word32) : (s.completeWithX x).vld = s.vld := rfl
@[simp] theorem State.completeWithX_firstErr (s : State) (x : Word32) :
    (s.completeWithX x).firstErr = s.firstErr := rfl
@[simp] theorem State.completeWithX_inFlight (s : State) (x : Word32) :
    (s.completeWithX x).inFlight = s.inFlight := rfl
@[simp] theorem State.completeWithX_undelivered (s : State) (x : Word32) :
    (s.completeWithX x).undelivered = s.undelivered ++ [rspWord 0 x 0 0 0 s.vld s.firstErr] := rfl
@[simp] theorem State.completeWithX_partialWord (s : State) (x : Word32) :
    (s.completeWithX x).partialWord = s.partialWord := rfl
@[simp] theorem State.completeWithX_delivered (s : State) (x : Word32) :
    (s.completeWithX x).delivered = s.delivered := rfl
@[simp] theorem State.completeWithX_events (s : State) (x : Word32) : (s.completeWithX x).events = s.events := rfl

/-! ### resetUnit -/

@[simp] theorem State.resetUnit_div (s : State) : s.resetUnit.div = 0 := rfl
@[simp] theorem State.resetUnit_mul (s : State) : s.resetUnit.mul = 0 := rfl
@[simp] theorem State.resetUnit_shf (s : State) : s.resetUnit.shf = 0 := rfl
@[simp] theorem State.resetUnit_vld (s : State) : s.resetUnit.vld = false := rfl
@[simp] theorem State.resetUnit_firstErr (s : State) : s.resetUnit.firstErr = 0 := rfl
@[simp] theorem State.resetUnit_inFlight (s : State) : s.resetUnit.inFlight = [] := rfl
@[simp] theorem State.resetUnit_undelivered (s : State) : s.resetUnit.undelivered = [] := rfl
@[simp] theorem State.resetUnit_partialWord (s : State) : s.resetUnit.partialWord = [] := rfl
@[simp] theorem State.resetUnit_delivered (s : State) : s.resetUnit.delivered = s.delivered := rfl
@[simp] theorem State.resetUnit_events (s : State) : s.resetUnit.events = s.events := rfl

/-! ### deliverAll -/

@[simp] theorem State.deliverAll_div (s : State) : s.deliverAll.div = s.div := rfl
@[simp] theorem State.deliverAll_mul (s : State) : s.deliverAll.mul = s.mul := rfl
@[simp] theorem State.deliverAll_shf (s : State) : s.deliverAll.shf = s.shf := rfl
@[simp] theorem State.deliverAll_vld (s : State) : s.deliverAll.vld = s.vld := rfl
@[simp] theorem State.deliverAll_firstErr (s : State) : s.deliverAll.firstErr = s.firstErr := rfl
@[simp] theorem State.deliverAll_inFlight (s : State) : s.deliverAll.inFlight = s.inFlight := rfl
@[simp] theorem State.deliverAll_undelivered (s : State) : s.deliverAll.undelivered = [] := rfl
@[simp] theorem State.deliverAll_partialWord (s : State) : s.deliverAll.partialWord = s.partialWord := rfl
@[simp] theorem State.deliverAll_delivered (s : State) : s.deliverAll.delivered = s.delivered ++ s.undelivered := rfl
@[simp] theorem State.deliverAll_events (s : State) : s.deliverAll.events = s.events := rfl

/-! ### reset -/

@[simp] theorem State.reset_div : State.reset.div = 0 := rfl
@[simp] theorem State.reset_mul : State.reset.mul = 0 := rfl
@[simp] theorem State.reset_shf : State.reset.shf = 0 := rfl
@[simp] theorem State.reset_vld : State.reset.vld = false := rfl
@[simp] theorem State.reset_firstErr : State.reset.firstErr = 0 := rfl
@[simp] theorem State.reset_inFlight : State.reset.inFlight = [] := rfl
@[simp] theorem State.reset_undelivered : State.reset.undelivered = [] := rfl
@[simp] theorem State.reset_partialWord : State.reset.partialWord = [] := rfl
@[simp] theorem State.reset_delivered : State.reset.delivered = [] := rfl
@[simp] theorem State.reset_events : State.reset.events = [] := rfl

end Sys2Proof.Machine
end

