-- ==== Sys2Proof/Laws/Ops.lean ====
section
/-! SUPPORT. For each shared operation, one lemma that says once all it can do. The provers cite these instead of
unfolding the operation. -/
namespace Sys2Proof.Machine

/-! ## Statuses and flags -/

@[simp] theorem statusCode_ok : statusCode .ok = 0x00 := rfl
@[simp] theorem statusCode_invalidDivisor : statusCode .invalidDivisor = 0x01 := rfl
@[simp] theorem statusCode_illegalCommand : statusCode .illegalCommand = 0x03 := rfl
@[simp] theorem statusCode_noInfo : statusCode .noInfo = 0x04 := rfl
@[simp] theorem statusCode_invalidShift : statusCode .invalidShift = 0x05 := rfl

/-- Only OK has the code 0 (R77). -/
theorem statusCode_eq_zero_iff (st : Status) : statusCode st = 0x00 ↔ st = .ok := by
  cases st <;> decide

@[simp] theorem firstErrAfter_ok (fe : BitVec 8) : firstErrAfter .ok fe = fe := rfl

/-- R85 for a failing command. -/
theorem firstErrAfter_error (st : Status) (fe : BitVec 8) (h : st ≠ .ok) :
    firstErrAfter st fe = if fe = 0 then statusCode st else fe := by
  simp [firstErrAfter, h]

@[simp] theorem vldAfterError_invalidDivisor (v : Bool) : vldAfterError .invalidDivisor v = false := rfl
@[simp] theorem vldAfterError_invalidShift (v : Bool) : vldAfterError .invalidShift v = false := rfl
@[simp] theorem vldAfterError_noInfo (v : Bool) : vldAfterError .noInfo v = v := rfl
@[simp] theorem vldAfterError_illegalCommand (v : Bool) : vldAfterError .illegalCommand v = v := rfl

/-! ## Operand values -/

/-- Acceptance as the arithmetic of R54. -/
theorem acceptable_iff (d : Word32) : acceptable d = true ↔ d.toNat % 2 = 1 ∧ 3 ≤ d.toNat := by
  simp [acceptable]

/-- The rejected divisors: even, or 1 (R54). -/
theorem acceptable_eq_false_iff (d : Word32) :
    acceptable d = false ↔ d.toNat % 2 = 0 ∨ d.toNat = 1 := by
  simp only [acceptable, Bool.and_eq_false_iff, decide_eq_false_iff_not]
  omega

/-- What the search answers is a candidate in range that R60's test passes, and no smaller shift passes it. -/
theorem derive_eq_some (d m s : Nat) (h : derive d = some (m, s)) :
    s ≤ maxShift ∧ m = cand d s ∧ twoPointExact d (cand d s) s = true ∧
      ∀ t, t < s → twoPointExact d (cand d t) t = false := by
  simp only [derive, Option.map_eq_some_iff, Prod.mk.injEq] at h
  obtain ⟨a, ha, hm, rfl⟩ := h
  rw [List.find?_range_eq_some] at ha
  obtain ⟨h1, h2, h3⟩ := ha
  refine ⟨by have := List.mem_range.mp h2; omega, hm.symm, h1, fun t ht => by simpa using h3 t ht⟩

/-! ## Completing a command -/

/-- `raise E()`, as one record (R84). -/
theorem State.raiseError_eq (s : State) (e : Status) :
    s.raiseError e =
      { s with
        vld := vldAfterError e s.vld
        firstErr := firstErrAfter e s.firstErr
        undelivered := s.undelivered ++
          [rspWord (statusCode e) 0 0 0 0 (vldAfterError e s.vld) (firstErrAfter e s.firstErr)] } := rfl

/-- Completing with OK and one result, as one record (R41). -/
theorem State.completeWithX_eq (s : State) (x : Word32) :
    s.completeWithX x =
      { s with undelivered := s.undelivered ++ [rspWord 0 x 0 0 0 s.vld s.firstErr] } := rfl

/-- Completing with OK and the triple, as one record (R41). -/
theorem State.completeWithTriple_eq (s : State) :
    s.completeWithTriple =
      { s with undelivered := s.undelivered ++
          [rspWord 0 (s.mul.extractLsb' 0 32) s.div s.shf (s.mul.extractLsb' 32 1) s.vld s.firstErr] } := rfl

/-- Taking the oldest response (R35): nothing, or that response moved. -/
theorem State.deliver_cases (s : State) :
    (s.undelivered = [] ∧ s.deliver = s) ∨
    ∃ r rs, s.undelivered = r :: rs ∧
      s.deliver = { s with undelivered := rs, delivered := s.delivered ++ [r] } := by
  unfold State.deliver
  cases h : s.undelivered with
  | nil => exact .inl ⟨rfl, rfl⟩
  | cons r rs => exact .inr ⟨r, rs, rfl, rfl⟩

/-! ## Room (R103) -/

/-- There is room for a response exactly below the capacity. -/
theorem State.hasResponseRoom_iff (s : State) :
    s.hasResponseRoom = true ↔ s.undelivered.length < Config.responseCapacity := by
  unfold State.hasResponseRoom Config.responseCapacity
  cases s.undelivered <;> simp

/-- There is room for a command exactly below the capacity. -/
theorem State.hasPipelineRoom_iff (s : State) :
    s.hasPipelineRoom = true ↔ s.inFlight.length < Config.pipelineCapacity := by
  unfold State.hasPipelineRoom Config.pipelineCapacity
  cases s.inFlight <;> simp

/-- Accepting a command (R34, R103): it goes behind the others, or nothing happens. -/
theorem State.acceptWord_cases (s : State) (w : CmdWord) :
    (s.hasPipelineRoom = true ∧ s.acceptWord w = { s with inFlight := s.inFlight ++ [w] }) ∨
    (s.hasPipelineRoom = false ∧ s.acceptWord w = s) := by
  cases h : s.hasPipelineRoom <;> simp [State.acceptWord, h]

/-- One more byte (R30): it waits with the others, or makes a word whole, or is not taken. -/
theorem State.acceptByte_cases (s : State) (b : Byte) :
    (s.partialWord.length < 11 ∧ s.acceptByte b = { s with partialWord := s.partialWord ++ [b] }) ∨
    (11 ≤ s.partialWord.length ∧ s.hasPipelineRoom = true ∧ s.acceptByte b =
      { s with
        partialWord := []
        inFlight := s.inFlight ++ [bytesToWord (s.partialWord ++ [b])] }) ∨
    (11 ≤ s.partialWord.length ∧ s.hasPipelineRoom = false ∧ s.acceptByte b = s) := by
  unfold State.acceptByte
  split
  · exact .inl ⟨‹_›, rfl⟩
  · have hl : 11 ≤ s.partialWord.length := by omega
    cases h : s.hasPipelineRoom with
    | false => exact .inr (.inr ⟨hl, rfl, rfl⟩)
    | true =>
      have h' : ({ s with partialWord := [] } : State).hasPipelineRoom = true := h
      exact .inr (.inl ⟨hl, rfl, by simp [State.acceptWord, h']⟩)

/-- Performing the oldest command (R34, R95, R103): it runs, or the unit is idle or stalled. -/
theorem performNext_cases (s : State) :
    (∃ w rest, s.inFlight = w :: rest ∧ s.hasResponseRoom = true ∧
      performNext s = performWord w { s with inFlight := rest }) ∨
    ((s.inFlight = [] ∨ s.hasResponseRoom = false) ∧ performNext s = .next s) := by
  unfold performNext
  cases h : s.inFlight with
  | nil => exact .inr ⟨.inl rfl, rfl⟩
  | cons w rest =>
    cases hr : s.hasResponseRoom with
    | false => exact .inr ⟨.inr rfl, by simp⟩
    | true => exact .inl ⟨w, rest, rfl, rfl, by simp⟩

/-- Presenting a word (withFetchWord) to a unit that can hold the response changes the queue and the script alone. -/
theorem State.presentNext_of_room (s : State) (w : CmdWord) (h : s.hasResponseRoom = true) :
    s.presentNext w = { s with inFlight := w :: s.inFlight, events := .perform :: s.events } := by
  simp [State.presentNext, h]

end Sys2Proof.Machine
end

