-- ==== Sys2Proof/Laws/Exec.lean ====
section
/-! SUPPORT. What each meaning, a command word and a step can do: one inversion lemma each. -/
namespace Sys2Proof.Machine

/-- DERIVE answers a next state by rejecting the divisor, or by loading what the search found (R58). -/
theorem execDerive_cases (d : Word32) (s t : State) (h : execDerive d s = .next t) :
    (acceptable d = false ∧ t = s.raiseError .invalidDivisor) ∨
    (acceptable d = true ∧ ∃ m sh, derive d.toNat = some (m, sh) ∧
      t = (s.loadTriple d (BitVec.ofNat 33 m) (BitVec.ofNat 6 sh)).completeWithTriple) := by
  unfold execDerive at h
  split at h
  · exact .inl ⟨‹_›, by simpa using h.symm⟩
  · refine .inr ⟨by simpa using ‹¬ acceptable d = false›, ?_⟩
    split at h
    · exact ⟨_, _, ‹_›, by simpa using h.symm⟩
    · cases h

/-- LDINFO always answers a next state, by one of three ways (R73, R86). -/
theorem execLdinfo_cases (d : Word32) (m : Mult) (sh : Shift) (s : State) :
    (acceptable d = false ∧ execLdinfo d m sh s = .next (s.raiseError .invalidDivisor)) ∨
    (acceptable d = true ∧ 32 < sh.toNat ∧ execLdinfo d m sh s = .next (s.raiseError .invalidShift)) ∨
    (acceptable d = true ∧ sh.toNat ≤ 32 ∧
      execLdinfo d m sh s = .next ((s.loadTriple d m sh).completeWithX 0)) := by
  unfold execLdinfo
  split
  · exact .inl ⟨‹_›, rfl⟩
  · have hd : acceptable d = true := by simpa using ‹¬ acceptable d = false›
    split
    · exact .inr (.inl ⟨hd, ‹_›, rfl⟩)
    · exact .inr (.inr ⟨hd, by simpa [maxShift] using ‹¬ maxShift < sh.toNat›, rfl⟩)

/-- QUOT answers NO_INFO or QF (R67). -/
theorem execQuot_cases (h : Word32) (s : State) :
    (s.vld = false ∧ execQuot h s = .next (s.raiseError .noInfo)) ∨
    (s.vld = true ∧ execQuot h s = .next (s.completeWithX (quotientOf h s.mul s.shf))) := by
  cases hv : s.vld <;> simp [execQuot, hv]

/-- REM answers NO_INFO or RF (R68). -/
theorem execRem_cases (h : Word32) (s : State) :
    (s.vld = false ∧ execRem h s = .next (s.raiseError .noInfo)) ∨
    (s.vld = true ∧ execRem h s = .next (s.completeWithX (remainderOf h s.div s.mul s.shf))) := by
  cases hv : s.vld <;> simp [execRem, hv]

/-- A command word that answers a next state is illegal, or runs as its command (R47, R81). -/
theorem performWord_cases (w : CmdWord) (s t : State) (h : performWord w s = .next t) :
    (∃ e, decode w = .error e ∧ t = s.raiseError .illegalCommand) ∨
    (∃ i, decode w = .ok i ∧ exec i s = .next t) := by
  unfold performWord at h
  split at h
  · exact .inr ⟨_, ‹_›, h⟩
  · exact .inl ⟨_, ‹_›, by simpa [execIllegal] using h.symm⟩

/-- How a command can end: with OK or with an error, loading a triple or leaving the registers (R78, R84). -/
theorem exec_cases (i : Instr) (s t : State) (h : exec i s = .next t) :
    (∃ e, (e = .invalidDivisor ∨ e = .invalidShift ∨ e = .noInfo) ∧ t = s.raiseError e) ∨
    (∃ x, t = s.completeWithX x) ∨ t = s.completeWithTriple ∨
    (∃ d m sh, acceptable d = true ∧ sh.toNat ≤ 32 ∧
      (t = (s.loadTriple d m sh).completeWithX 0 ∨ t = (s.loadTriple d m sh).completeWithTriple)) := by
  cases i with
  | derive d =>
    obtain ⟨-, rfl⟩ | ⟨hd, m, sh, hs, rfl⟩ := execDerive_cases d s t h
    · exact .inl ⟨_, .inl rfl, rfl⟩
    · refine .inr (.inr (.inr ⟨d, _, _, hd, ?_, .inr rfl⟩))
      have := (derive_eq_some _ _ _ hs).1
      simp only [maxShift] at this
      simp only [BitVec.toNat_ofNat]
      omega
  | ldinfo d m sh =>
    obtain ⟨-, h'⟩ | ⟨-, -, h'⟩ | ⟨hd, hs, h'⟩ := execLdinfo_cases d m sh s <;>
      obtain rfl : t = _ := by simpa using (h.symm.trans h')
    · exact .inl ⟨_, .inl rfl, rfl⟩
    · exact .inl ⟨_, .inr (.inl rfl), rfl⟩
    · exact .inr (.inr (.inr ⟨d, m, sh, hd, hs, .inl rfl⟩))
  | rdinfo =>
    obtain rfl : s.completeWithTriple = t := by simpa [exec, execRdinfo] using h
    exact .inr (.inr (.inl rfl))
  | quot x =>
    obtain ⟨-, h'⟩ | ⟨-, h'⟩ := execQuot_cases x s <;>
      obtain rfl : t = _ := by simpa using (h.symm.trans h')
    · exact .inl ⟨_, .inr (.inr rfl), rfl⟩
    · exact .inr (.inl ⟨_, rfl⟩)
  | rem x =>
    obtain ⟨-, h'⟩ | ⟨-, h'⟩ := execRem_cases x s <;>
      obtain rfl : t = _ := by simpa using (h.symm.trans h')
    · exact .inl ⟨_, .inr (.inr rfl), rfl⟩
    · exact .inr (.inl ⟨_, rfl⟩)

/-- What a step does, by what the script says next (R34, R95, R103). -/
theorem step_eq (s : State) :
    step s =
      match s.events with
      | [] => performNext s
      | .command w :: rest => .next (({ s with events := rest } : State).acceptWord w)
      | .commandByte b :: rest => .next (({ s with events := rest } : State).acceptByte b)
      | .stalled _ :: rest => .next { s with events := rest }
      | .perform :: rest => performNext { s with events := rest }
      | .takeResponse :: rest => .next ({ s with events := rest } : State).deliver
      | .reset :: rest => .next ({ s with events := rest } : State).resetUnit := by
  unfold step advance
  cases s.events with
  | nil => rfl
  | cons e rest => cases e <;> rfl

/-- A run of k + 1 steps begins with a step. -/
theorem run_succ_of_step (k : Nat) (s t : State) (h : step s = .next t) :
    Sys2Proof.core.run (k + 1) s = Sys2Proof.core.run k t := by
  have run_next (M : Host.Core) (a b : M.State) (h : M.step a = .next b) : M.run (k + 1) a = M.run k b := by
    simp only [Host.Core.run, h]
  exact run_next Sys2Proof.core s t h

end Sys2Proof.Machine
end

