-- ==== Sys2Proof/Laws/PerInstr.lean ====
section
/-! SUPPORT. Statements about every command as syntax, one lemma per constructor of `Instr`. -/
namespace Sys2Proof.Laws

open Sys2Proof

/-- The command's word matches the row of the opcode table that has its mnemonic (R42, R53). -/
def EncodeMatchesItsRow.Statement (i : Instr) : Prop :=
  ∃ r ∈ opcodeTable, r.mnemonic = i.mnemonic ∧ encode i &&& r.mask = r.pattern

/-- Masking the header of a command word, all other bits dropped. -/
theorem cmdWord_and_header (b a : Word32) (h : BitVec 32) (amul32 : BitVec 1) (ashf : Shift) (op : BitVec 8) :
    cmdWord b a 0 amul32 ashf op &&& (0#64 ++ h) =
      (0#64 ++ ((0#17 ++ amul32 ++ ashf ++ op) &&& h) : BitVec 96) := by
  unfold cmdWord
  ext i hi
  simp only [BitVec.getElem_and, BitVec.getElem_append]
  grind

theorem EncodeMatchesItsRow.derive (d : Word32) : EncodeMatchesItsRow.Statement (.derive d) :=
  ⟨_, .head _, rfl, cmdWord_and_header d 0 0xFFFFFFFF 0 0 0x01⟩

theorem EncodeMatchesItsRow.ldinfo (d : Word32) (m : Mult) (s : Shift) :
    EncodeMatchesItsRow.Statement (.ldinfo d m s) := by
  refine ⟨_, .tail _ (.head _), rfl, ?_⟩
  refine (cmdWord_and_header d (m.extractLsb' 0 32) 0xFFFF80FF (m.extractLsb' 32 1) s 0x02).trans ?_
  have h : ((0#17 ++ m.extractLsb' 32 1 ++ s ++ (0x02 : BitVec 8)) &&& 0xFFFF80FF : BitVec 32) = 0x02 := by
    ext i hi
    simp only [BitVec.getElem_and, BitVec.getElem_append]
    interval_cases i <;> simp
  rw [h]
  rfl

theorem EncodeMatchesItsRow.rdinfo : EncodeMatchesItsRow.Statement .rdinfo :=
  ⟨_, .tail _ (.tail _ (.head _)), rfl, cmdWord_and_header 0 0 0xFFFFFFFF 0 0 0x03⟩

theorem EncodeMatchesItsRow.quot (h : Word32) : EncodeMatchesItsRow.Statement (.quot h) :=
  ⟨_, .tail _ (.tail _ (.tail _ (.head _))), rfl, cmdWord_and_header 0 h 0xFFFFFFFF 0 0 0x04⟩

theorem EncodeMatchesItsRow.rem (h : Word32) : EncodeMatchesItsRow.Statement (.rem h) :=
  ⟨_, .tail _ (.tail _ (.tail _ (.tail _ (.head _)))), rfl, cmdWord_and_header 0 h 0xFFFFFFFF 0 0 0x05⟩

end Sys2Proof.Laws
end

