-- ==== Sys2Proof/Tests/Slice0.lean ====
section
/-! SUPPORT. Tests: ill-formed lines, words written out bit by bit from 30_encoding.md, single commands from
95_test_vectors.md, and for every statement with hypotheses a witness that meets them. -/
namespace Sys2Proof.Tests

open Sys2Proof Sys2Proof.Machine

/-- The next state, where there is one: a form in which states can be compared. -/
def nextOf : Host.Outcome State Fault Refusal → Option State
  | .next s => some s
  | .fault _ => none
  | .refused _ => none

/-- The newest response of the next state. -/
def responseOf (o : Host.Outcome State Fault Refusal) : Option RspWord :=
  (nextOf o).bind fun s => s.undelivered.getLast?

/-- The state after `DERIVE 7` from reset, its response taken (95_test_vectors.md 1.1). -/
def loaded7 : State :=
  { State.reset with div := 7, mul := 0x124924925, shf := 3, vld := true,
                     delivered := [0x00000007249249250000C300] }

/-- The state after `DERIVE 641` from reset, its response taken (95_test_vectors.md 2.1). -/
def loaded641 : State :=
  { State.reset with div := 641, mul := 0x663D81, shf := 0, vld := true,
                     delivered := [0x0000028100663D8100008000] }

/-! ## Ill-formed assembler lines (R50), one for each check -/

theorem test_illformed_derive_d : AsmLine.wellFormed (.derive (2 ^ 32)) = false := by decide
theorem test_illformed_ldinfo_d : AsmLine.wellFormed (.ldinfo (2 ^ 32) 1 0) = false := by decide
theorem test_illformed_ldinfo_m : AsmLine.wellFormed (.ldinfo 7 (2 ^ 33) 0) = false := by decide
theorem test_illformed_ldinfo_s : AsmLine.wellFormed (.ldinfo 7 1 64) = false := by decide
theorem test_illformed_quot_h : AsmLine.wellFormed (.quot (2 ^ 32)) = false := by decide
theorem test_illformed_rem_h : AsmLine.wellFormed (.rem (2 ^ 32)) = false := by decide
theorem test_illformed_bidx_h : AsmLine.wellFormed (.bidx (2 ^ 32)) = false := by decide
theorem test_wellformed_ldinfo_shift_63 : AsmLine.wellFormed (.ldinfo 7 1 63) = true := by decide

/-! ## Words bit by bit: B, A, RSVD, AMUL32, ASHF, OP (R40, R42, R46), then what R47 reads from them -/

/-- B = 0x80000003, A = 0xFFFFFFFF (ignored), OP = 0x01. -/
theorem test_decode_derive :
    decode (0b10000000000000000000000000000011#32 ++ 0b11111111111111111111111111111111#32 ++
      0b00000000000000000#17 ++ 0b0#1 ++ 0b000000#6 ++ 0b00000001#8) = .ok (.derive 0x80000003) := rfl

/-- B = 7, A = 0x24924925, AMUL32 = 1, ASHF = 3, OP = 0x02. -/
theorem test_decode_ldinfo :
    decode (0b00000000000000000000000000000111#32 ++ 0b00100100100100100100100100100101#32 ++
      0b00000000000000000#17 ++ 0b1#1 ++ 0b000011#6 ++ 0b00000010#8) =
      .ok (.ldinfo 7 0x124924925 3) := rfl

/-- A and B all ones (both ignored), OP = 0x03. -/
theorem test_decode_rdinfo :
    decode (0b11111111111111111111111111111111#32 ++ 0b11111111111111111111111111111111#32 ++
      0b00000000000000000#17 ++ 0b0#1 ++ 0b000000#6 ++ 0b00000011#8) = .ok .rdinfo := rfl

/-- B = 1 (ignored), A = 0x80000001, OP = 0x04. -/
theorem test_decode_quot :
    decode (0b00000000000000000000000000000001#32 ++ 0b10000000000000000000000000000001#32 ++
      0b00000000000000000#17 ++ 0b0#1 ++ 0b000000#6 ++ 0b00000100#8) = .ok (.quot 0x80000001) := rfl

/-- A = 13, OP = 0x05. -/
theorem test_decode_rem :
    decode (0b00000000000000000000000000000000#32 ++ 0b00000000000000000000000000001101#32 ++
      0b00000000000000000#17 ++ 0b0#1 ++ 0b000000#6 ++ 0b00000101#8) = .ok (.rem 13) := rfl

/-- LDINFO with ASHF = 33: it decodes, and fails only in execution (R44). -/
theorem test_decode_ldinfo_shift_33 :
    decode 0x000000070000000000002102 = .ok (.ldinfo 7 0 33) := rfl

/-! Each case of R48, at the edges of its range. -/

theorem test_illegal_zero : decode 0x000000000000000000000000 = .error .unassignedOpcode := rfl
theorem test_illegal_op_06 : decode 0x000000000000000000000006 = .error .unassignedOpcode := rfl
theorem test_illegal_op_ff : decode 0x0000000000000000000000FF = .error .unassignedOpcode := rfl
theorem test_illegal_bit_15 : decode 0x000000070000000000008001 = .error .reservedHeaderBits := rfl
theorem test_illegal_bit_31 : decode 0x000000040000000080000001 = .error .reservedHeaderBits := rfl
theorem test_illegal_ldinfo_bit_15 : decode 0x00000007249249250000C302 = .error .reservedHeaderBits := rfl
theorem test_illegal_aux_derive : decode 0x000000070000000000004001 = .error .auxBits := rfl
theorem test_illegal_aux_rdinfo : decode 0x000000000000000000003F03 = .error .auxBits := rfl
theorem test_illegal_aux_quot : decode 0x000000000000000D00000104 = .error .auxBits := rfl
theorem test_illegal_aux_rem : decode 0x000000000000000D00004005 = .error .auxBits := rfl

/-- No two rows of the opcode table match one word: two different rows differ in a bit both masks keep (R53). -/
theorem test_opcode_rows_disjoint :
    opcodeTable.Pairwise fun r q => r.mask &&& q.mask &&& (r.pattern ^^^ q.pattern) ≠ 0 := by decide

/-- 20_memory.md R29's example, `DERIVE 7`: byte 0 first. -/
theorem test_bytes_of_derive_7 :
    wordToBytes 0x000000070000000000000001 = [1, 0, 0, 0, 0, 0, 0, 0, 7, 0, 0, 0] := by decide

/-- A serialized `LDINFO` whose bytes all differ in weight decodes; eleven bytes do not. -/
theorem test_decode_bytes :
    decodeBytes [0x02, 0x43, 0, 0, 0x25, 0x49, 0x92, 0x24, 7, 0, 0, 0] = .ok (.ldinfo 7 0x124924925 3) := rfl
theorem test_decode_eleven_bytes :
    decodeBytes [0x02, 0x43, 0, 0, 0x25, 0x49, 0x92, 0x24, 7, 0, 0] = .error .notOneWord := rfl

/-! ## Single commands (95_test_vectors.md) -/

/-- 2.1: the largest shift, a 33-bit multiplier. -/
theorem test_derive_widest_shift :
    nextOf (performWord 0xFFFEFFF90000000000000001 State.reset) = some
      { State.reset with div := 0xFFFEFFF9, mul := 0x100010009, shf := 32, vld := true,
                         undelivered := [0xFFFEFFF9000100090000E000] } := by decide

/-- 2.4: a failed DERIVE clears VLD and keeps the triple. -/
theorem test_derive_4_after_7 :
    nextOf (performWord 0x000000040000000000000001 loaded7) = some
      { loaded7 with vld := false, firstErr := 0x01, undelivered := [0x000000000000000000010001] } := by
  decide

/-- 2.4: with d = 4 and s = 40, INVALID_DIVISOR wins. -/
theorem test_ldinfo_priority :
    responseOf (performWord 0x000000040000000000002802 loaded7) = some 0x000000000000000000010001 := by decide

/-- 2.4: shift 63. -/
theorem test_ldinfo_shift_63 :
    nextOf (performWord 0x000000072492492500007F02 loaded7) = some
      { loaded7 with vld := false, firstErr := 0x05, undelivered := [0x000000000000000000050005] } := by
  decide

/-- 1.1 and 42_info.md R74's example. -/
theorem test_rdinfo_after_derive_7 :
    responseOf (performWord 0x000000000000000000000003 loaded7) = some 0x00000007249249250000C300 := by decide

/-- 42_info.md R74: an RDINFO from reset. -/
theorem test_rdinfo_from_reset :
    responseOf (performWord 0x000000000000000000000003 State.reset) = some 0 := by decide

/-- 2.2, d = 7, h = 2^32 - 1. -/
theorem test_quot_top :
    responseOf (performWord 0x00000000FFFFFFFF00000004 loaded7) = some 0x000000002492492400008000 := by decide

/-- 2.6, row 4: the quotient is truncated. -/
theorem test_quot_truncates :
    responseOf (performWord 0x00000000FFFFFFFF00000004
      { loaded7 with div := 3, mul := 0x1FFFFFFFF, shf := 0 }) = some 0x00000000FFFFFFFD00008000 := by decide

/-- 1.1: 13 mod 7. -/
theorem test_rem_13 :
    responseOf (performWord 0x000000000000000D00000005 loaded7) = some 0x000000000000000600008000 := by decide

/-- 2.6, row 1: the remainder wraps. -/
theorem test_rem_wraps :
    responseOf (performWord 0x00000000CCCCCCD100000005
      { loaded7 with mul := 0x92492493, shf := 2 }) = some 0x00000000FFFFFFFF00008000 := by decide

/-- 2.4: an illegal word changes only FIRSTERR. -/
theorem test_illegal_word :
    nextOf (performWord 0x0000000000000000000000FF loaded7) = some
      { loaded7 with firstErr := 0x03, undelivered := [0x000000000000000000038003] } := by decide

/-- 2.5: the first failure stays in FIRSTERR. -/
theorem test_first_error_stays :
    responseOf (performWord 0x000000040000000000000001 { State.reset with firstErr := 0x04 }) =
      some 0x000000000000000000040001 := by decide

/-- 2.1: small, composite and largest divisors. -/
theorem test_derive_pairs :
    [3, 7, 9, 15, 641, 1000003, 4294967295].map derive =
      [some (0xAAAAAAAB, 1), some (0x124924925, 3), some (0x38E38E39, 1), some (0x88888889, 3),
        some (0x663D81, 0), some (0x10C6F4545, 20), some (0x80000001, 31)] := by decide

/-- 70_reset_and_hazards.md R98: a command in flight at reset does nothing; a delivered response stays. -/
theorem test_reset_discards :
    nextOf (step { loaded7 with inFlight := [0x000000030000000000000001], undelivered := [5],
                                events := [.reset] }) =
      some { State.reset with delivered := loaded7.delivered } := by decide

/-- The host's entry: the word is what the next step performs, from reset. -/
theorem test_fetch_word_runs :
    nextOf (step (State.reset.withFetchWord 96 0x00000007249249250000_4302)) = some
      { State.reset with div := 7, mul := 0x124924925, shf := 3, vld := true, undelivered := [0x8000] } := by
  decide

theorem test_decode_table_word : decodeTableWord 96 0x000000000000000D00000005 = some (.rem 13) := by decide

/-! ## The assembler (R50, R52) -/

theorem test_text_ldinfo :
    assembleText ['L', 'D', 'I', 'N', 'F', 'O', ' ', '7', ',', ' ', '0', 'x', '1', '2', '4', '9', '2', '4', '9', '2',
      '5', ',', ' ', '3', ' ', ';', 'x'] = .ok (some 0x000000072492492500004302) := by decide

theorem test_text_bidx :
    assembleText ['B', 'I', 'D', 'X', ' ', '1', '3'] = .ok (some 0x000000000000000D00000005) := by decide

theorem test_text_rdinfo :
    assembleText ['R', 'D', 'I', 'N', 'F', 'O'] = .ok (some 3) := by decide

theorem test_text_raw :
    assembleText ['.', 'r', 'a', 'w', ' ', '0', '0', '0', '0', '0', '0', '0', '7', '_', '0', '0', '0', '0', '0', '0',
      '0', '0', '_', '0', '0', '0', '0', '8', '0', '0', '1'] = .ok (some 0x000000070000000000008001) := by
  decide

theorem test_text_too_wide :
    assembleText ['Q', 'U', 'O', 'T', ' ', '4', '2', '9', '4', '9', '6', '7', '2', '9', '6'] =
      .error .doesNotFit := by decide

/-! ## Witnesses: each meets every hypothesis of the statement it names -/

/-- LdinfoOfValidTripleGivesExactLookups, ValidTripleDividesExactly: the triple of 641, (0x663D81, 0), is valid. -/
theorem witness_valid_triple_641 : ValidTriple 641 0x663D81 0 := by
  refine ⟨by decide, by decide, by decide, ?_, fun t ht => absurd ht (Nat.not_lt_zero t)⟩
  intro n hn
  rw [Nat.shiftRight_eq_div_pow]
  change n * 6700417 / 2 ^ 32 = n / 641
  omega

/-- IllegalEncodingsCompleteWithIllegalCommand, StepPerformsTheOldestCommand (errors). -/
theorem witness_illegal_word : decode 0x000000000000000000000006 = .error .unassignedOpcode := rfl

/-- WordDecodesIffItMatchesARow, DecodedOperandsAreTheWordsFields: every field at its greatest value. -/
theorem witness_decoded_operands :
    decode 0xFFFFFFFFFFFFFFFF00007F02 = .ok (.ldinfo 0xFFFFFFFF 0x1FFFFFFFF 63) := rfl

/-- SerializedWordsAreLittleEndian. -/
theorem witness_twelve_bytes : ([0, 1, 2, 3, 4, 5, 6, 7, 8, 9, 10, 255] : List Byte).length = 12 := rfl

/-- IgnoredOperandWordsHaveNoEffect: one pair of words for each clause. -/
theorem witness_ignored_operands :
    (let w : CmdWord := 0x000000070000000000000001; let v : CmdWord := 0x00000007FFFFFFFF00000001
     w.extractLsb' 0 32 = v.extractLsb' 0 32 ∧ cmdOp w = 0x01 ∧ cmdB w = cmdB v ∧ w ≠ v) ∧
    (let w : CmdWord := 0x000000000000000000000003; let v : CmdWord := 0xFFFFFFFFFFFFFFFF00000003
     w.extractLsb' 0 32 = v.extractLsb' 0 32 ∧ cmdOp w = 0x03 ∧ w ≠ v) ∧
    (let w : CmdWord := 0x000000000000000D00000004; let v : CmdWord := 0xFFFFFFFF0000000D00000004
     w.extractLsb' 0 32 = v.extractLsb' 0 32 ∧ cmdOp w = 0x04 ∧ cmdA w = cmdA v ∧ w ≠ v) ∧
    (let w : CmdWord := 0x000000000000000D00000005; let v : CmdWord := 0xFFFFFFFF0000000D00000005
     w.extractLsb' 0 32 = v.extractLsb' 0 32 ∧ cmdOp w = 0x05 ∧ cmdA w = cmdA v ∧ w ≠ v) := by decide

/-- AssemblerEncodesEveryFittingLine: the greatest operands that fit, and the least that do not. -/
theorem witness_asm_edges :
    (2 ^ 32 - 1 < 2 ^ 32 ∧ 2 ^ 33 - 1 < 2 ^ 33 ∧ 63 < 64) ∧ (2 ^ 32 ≤ 2 ^ 32 ∧ 2 ^ 33 ≤ 2 ^ 33 ∧ 64 ≤ 64) := by
  decide

/-- StepPerformsTheOldestCommand: a word in flight, performed because the script says so, or on the unit's own. -/
theorem witness_oldest_command :
    (let s : State := { loaded7 with inFlight := [0x000000000000000D00000005, 3],
                                     events := [.perform, .takeResponse] }
     s.inFlight = 0x000000000000000D00000005 :: [3] ∧ s.events = .perform :: [.takeResponse] ∧
       s.undelivered.length < Config.responseCapacity) ∧
    (let s : State := { loaded7 with inFlight := [0] }
     s.inFlight = 0 :: [] ∧ s.events = [] ∧ s.undelivered.length < Config.responseCapacity ∧
       decode 0 = .error .unassignedOpcode) ∧
    decode 0x000000000000000D00000005 = .ok (.rem 13) := by
  exact ⟨⟨rfl, rfl, Nat.succ_pos _⟩, ⟨rfl, rfl, Nat.succ_pos _, rfl⟩, rfl⟩

/-- `loaded7` with as many commands in flight as the unit can hold, the responses it can hold untaken, and eleven bytes
of a word waiting. -/
def full7 : State :=
  { loaded7 with inFlight := List.replicate Config.pipelineCapacity 3,
                 undelivered := List.replicate Config.responseCapacity 0x8000,
                 partialWord := List.replicate 11 1 }

theorem full7_inFlight_length : full7.inFlight.length = Config.pipelineCapacity := List.length_replicate

theorem full7_undelivered_length : full7.undelivered.length = Config.responseCapacity := List.length_replicate

/-- R103: the unit that holds all the responses it can does not perform, until the host takes one. -/
theorem test_full_unit_stalls : step full7 = .next full7 := by
  obtain ⟨_, _, _, h, _⟩ | ⟨_, h⟩ := performNext_cases full7
  · have := full7.hasResponseRoom_iff.mp h
    rw [full7_undelivered_length] at this
    exact absurd this (Nat.lt_irrefl _)
  · exact h

/-- R103: with the first response taken, the unit has room again. -/
theorem test_room_after_taking : full7.deliver.hasResponseRoom = true := by
  rw [State.hasResponseRoom_iff]
  simp [State.deliver, full7, Config.responseCapacity, List.replicate_succ]

/-- CommandsAndResponsesKeepTheirOrder: one state for each clause, the capacity met exactly. -/
theorem witness_interface_events :
    (({ loaded7 with events := [.command 3] } : State).events = .command 3 :: [] ∧
      loaded7.inFlight.length < Config.pipelineCapacity) ∧
    (({ full7 with events := [.command 3] } : State).events = .command 3 :: [] ∧
      Config.pipelineCapacity ≤ full7.inFlight.length) ∧
    ({ loaded7 with events := [.stalled 3] } : State).events = .stalled 3 :: [] ∧
    ({ loaded7 with events := [.takeResponse], undelivered := [5, 6] } : State).events = .takeResponse :: [] ∧
    ({ loaded7 with events := [.takeResponse], undelivered := [5, 6] } : State).undelivered = 5 :: [6] :=
  ⟨⟨rfl, Nat.succ_pos _⟩, ⟨rfl, full7_inFlight_length.ge⟩, rfl, rfl, rfl⟩

/-- PartialTransferGivesNoCommand: no byte waiting; eleven bytes, the most that make no command; and a twelfth with the
pipeline full. -/
theorem witness_partial_transfer :
    (loaded7.partialWord = [] ∧ loaded7.inFlight.length < Config.pipelineCapacity) ∧
    loaded7.partialWord.length + (List.replicate 11 (1 : Byte)).length < 12 ∧
    (full7.partialWord.length = 11 ∧ Config.pipelineCapacity ≤ full7.inFlight.length) :=
  ⟨⟨rfl, Nat.succ_pos _⟩, by decide, rfl, full7_inFlight_length.ge⟩

/-- ResetClearsRegistersAndDiscards. -/
theorem witness_reset_event :
    ({ loaded7 with events := [.reset, .perform] } : State).events = .reset :: [.perform] := rfl

/-- IdleUnitHoldsItsState. -/
theorem witness_idle : loaded7.events = [] ∧ loaded7.inFlight = [] := by decide

/-- EveryScheduleIsTheSequentialFold: acceptance, performing and delivery overlap, and a word arrives as bytes. -/
theorem witness_schedule :
    Event.reset ∉ ({ loaded7 with events := [.command 0x000000030000000000000001, .command 3, .perform, .stalled 7,
      .commandByte 1, .takeResponse, .perform, .perform] } : State).events := by decide

/-- AcceptedCommandsComplete: as many untaken responses as the unit can hold, and two commands in flight. -/
theorem witness_keep_taking :
    (let s : State := { full7 with inFlight := [3, 0], events := [.takeResponse, .perform, .takeResponse, .perform] }
     s.undelivered.length ≤ Config.responseCapacity ∧ s.events = keepTaking s.inFlight.length) :=
  ⟨full7_undelivered_length.le, rfl⟩

/-- HostThatTakesNoResponseStallsTheUnit: a script that takes nothing, and an empty one. -/
theorem witness_stalled_for_good :
    Config.responseCapacity ≤ full7.undelivered.length ∧ full7.events = [] ∧
    (let s : State := { full7 with events := [.perform, .command 3, .commandByte 1] }
     Config.responseCapacity ≤ s.undelivered.length ∧ Event.reset ∉ s.events ∧ Event.takeResponse ∉ s.events) :=
  ⟨full7_undelivered_length.ge, rfl, full7_undelivered_length.ge, by decide, by decide⟩

/-- ErrorsArePrecise, FirstErrUpdateRule, VldRule: a failing command, its next state and its response. -/
theorem witness_failing_command :
    ∃ t, performWord 0x000000040000000000000001 loaded7 = .next t ∧
      t.undelivered = loaded7.undelivered ++ [0x000000000000000000010001] ∧
      rspStatus 0x000000000000000000010001 ≠ 0x00 := ⟨_, rfl, by decide, by decide⟩

/-- OnlyResetClearsFirstErr. -/
theorem witness_sticky :
    ∃ t, step { State.reset with firstErr := 0x04, inFlight := [3], events := [.perform] } = .next t ∧
      ({ State.reset with firstErr := 0x04, inFlight := [3], events := [.perform] } : State).firstErr ≠ 0x00 ∧
      ({ State.reset with firstErr := 0x04, inFlight := [3], events := [.perform] } : State).events.head? ≠
        some .reset := ⟨_, rfl, by decide, by decide⟩

/-- OnlyOkDeriveOrLdinfoWritesTheTriple: an LDINFO that changes DIV, MUL and SHF. -/
theorem witness_triple_written :
    ∃ t, performWord 0x000000072492492500004302 State.reset = .next t ∧
      t.undelivered = State.reset.undelivered ++ [0x8000] ∧ t.div ≠ State.reset.div ∧
      t.mul ≠ State.reset.mul ∧ t.shf ≠ State.reset.shf := ⟨_, rfl, by decide, by decide, by decide, by decide⟩

/-- ResponsesDependOnRegistersAlone: states that differ in what is hidden. -/
theorem witness_same_registers :
    SameRegisters loaded7 { loaded7 with inFlight := [1], delivered := [], events := [.reset] } :=
  ⟨rfl, rfl, rfl, rfl, rfl⟩

/-- ReadsAreIdempotent, QuotRespondsWithTheQuotient, RemRespondsWithTheRemainder. -/
theorem witness_triple_in_use : loaded7.vld = true ∧ loaded7.shf.toNat ≤ 32 ∧
    ({ loaded7 with shf := 32 } : State).shf.toNat ≤ 32 := by decide

/-- LookupWithoutTripleIsNoInfo, FirstErrShowsAFailedCatalogBuild. -/
theorem witness_no_triple : State.reset.vld = false ∧ State.reset.firstErr = 0x00 := by decide

/-- TwoPointCriterionDecidesExactness: 7's exact candidate, and an inexact one. -/
theorem witness_two_point :
    (1 ≤ 7 ∧ 3 ≤ 32 ∧ 2 ^ (32 + 3) ≤ 0x124924925 * 7) ∧ 2 ^ (32 + 2) ≤ 0x92492493 * 7 := by decide

/-- DeriveSearchFindsTheDefinedPair, DerivationReturnsWithinItsBounds, DeriveLoadsTheDerivedTriple,
FirstCommandAfterReset, DeriveDependsOnTheDivisorAlone: the least accepted divisor and the greatest. -/
theorem witness_accepted_divisors :
    (3 % 2 = 1 ∧ 3 ≤ 3 ∧ 3 < 2 ^ 32 ∧ 2 ^ (2 - 1) < 3 ∧ 3 < 2 ^ 2) ∧
    (4294967295 % 2 = 1 ∧ 3 ≤ 4294967295 ∧ 4294967295 < 2 ^ 32 ∧ 2 ^ (32 - 1) < 4294967295 ∧ 4294967295 < 2 ^ 32) ∧
    ((0xFFFFFFFF : Word32).toNat % 2 = 1 ∧ 3 ≤ (0xFFFFFFFF : Word32).toNat) := by decide

/-- ShiftBelowTheDerivedOneFails. -/
theorem witness_shift_below : derive 7 = some (0x124924925, 3) ∧ 1 ≤ 3 := by decide

/-- BadDivisorIsRejected: 0, 1, 2 and the greatest even divisor. -/
theorem witness_bad_divisors :
    (0 : Word32).toNat % 2 = 0 ∧ (1 : Word32).toNat = 1 ∧ (2 : Word32).toNat % 2 = 0 ∧
      (0xFFFFFFFE : Word32).toNat % 2 = 0 := by decide

/-- LdinfoLoadsItsTriple up to shift 32, LdinfoRejectsShiftAbove32 from 33 to 63, QuotientDatapathFormula and
RemainderDatapathFormula at shift 32. -/
theorem witness_shift_edges :
    ((3 : Word32).toNat % 2 = 1 ∧ 3 ≤ (3 : Word32).toNat) ∧
    (32 : Shift).toNat ≤ 32 ∧ 33 ≤ (33 : Shift).toNat ∧ 33 ≤ (63 : Shift).toNat := by decide

/-- SavedResponseReloadsItsTriple: an RDINFO, and a DERIVE that completes with OK. -/
theorem witness_saved_response :
    (∃ t, exec .rdinfo loaded7 = .next t ∧
      t.undelivered = loaded7.undelivered ++ [0x00000007249249250000C300]) ∧
    (∃ t, exec (.derive 3) loaded7 = .next t ∧
      t.undelivered = loaded7.undelivered ++ [0x00000003AAAAAAAB00008100]) ∧
    rspStatus 0x00000003AAAAAAAB00008100 = 0x00 ∧ rspVld 0x00000007249249250000C300 = 1 ∧
    RegistersLegal loaded7 :=
  ⟨⟨_, rfl, by decide⟩, ⟨_, rfl, by decide⟩, by decide, by decide, by decide, fun _ => by decide⟩

/-- LookupsAfterDeriveAreExactDivision: an illegal word, an RDINFO and a lookup between. -/
theorem witness_commands_between :
    ((3 : Word32).toNat % 2 = 1 ∧ 3 ≤ (3 : Word32).toNat) ∧
    ∀ w ∈ ([0, 3, 0x000000000000000D00000005] : List CmdWord), LeavesTriple w := by
  simp only [List.forall_mem_cons]
  exact ⟨by decide, trivial, trivial, trivial, by simp⟩

/-- StepKeepsLegal: a state with a command in flight and a response delivered. -/
theorem witness_legal_step :
    Legal { loaded641 with inFlight := [3] } ∧ ∃ t, step { loaded641 with inFlight := [3] } = .next t := by
  refine ⟨⟨⟨by decide, fun _ => by decide⟩, by decide, by simp [loaded641], ?_, by decide,
    Nat.zero_le _, Nat.succ_pos _⟩, _, rfl⟩
  simp only [loaded641, List.forall_mem_singleton, ResponseLegal]
  decide

/-- TripleInUseStaysValid: a valid triple in use, and an LDINFO that carries a valid one. -/
theorem witness_triple_in_use_valid :
    TripleInUseValid loaded641 ∧
      (∀ d m sh, decode 0x0000028100663D8100000002 = .ok (.ldinfo d m sh) → ValidTriple d m sh) ∧
      ∃ t, performWord 0x0000028100663D8100000002 loaded641 = .next t := by
  refine ⟨fun _ => witness_valid_triple_641, fun d m sh h => ?_, _, rfl⟩
  have h' : (Except.ok (.ldinfo 641 0x663D81 0) : Except DecodeError Instr) = .ok (.ldinfo d m sh) := h
  cases h'
  exact witness_valid_triple_641

end Sys2Proof.Tests
end

/-! SUPPORT. Decode undoes encode (30_encoding.md R42, R47), and the latency bounds of 00_scope.md R7. -/
namespace Sys2Proof.Proofs

open Sys2Proof Sys2Proof.Machine

/-- The word of a command decodes to that command (R42, R47). -/
@[simp] theorem decode_encode (i : Instr) : decode (encode i) = .ok i := by
  cases i with
  | derive d => simp [encode, decode]
  | ldinfo d m s => simp [encode, decode]
  | rdinfo => simp [encode, decode]
  | quot h => simp [encode, decode]
  | rem h => simp [encode, decode]

theorem one_le_latQr : 1 ≤ Config.latQr := Nat.succ_pos _

theorem one_le_latDerive : 1 ≤ Config.latDerive := Nat.succ_pos _

theorem one_le_latInfo : 1 ≤ Config.latInfo := Nat.succ_pos _

/-- R7 has three latency parameters, and every word, illegal ones too, is bounded by one of them. -/
theorem latencyBound_cases (w : CmdWord) :
    latencyBound w = Config.latDerive ∨ latencyBound w = Config.latInfo ∨ latencyBound w = Config.latQr := by
  unfold latencyBound
  rcases decode w with e | i
  · exact .inr (.inl rfl)
  · cases i with
    | derive d => exact .inl rfl
    | ldinfo d m s => exact .inr (.inl rfl)
    | rdinfo => exact .inr (.inl rfl)
    | quot h => exact .inr (.inr rfl)
    | rem h => exact .inr (.inr rfl)

theorem one_le_latencyBound (w : CmdWord) : 1 ≤ latencyBound w := by
  obtain hw | hw | hw := latencyBound_cases w <;> rw [hw]
  · exact one_le_latDerive
  · exact one_le_latInfo
  · exact one_le_latQr

/-- No hash changes the bound of a QUOT (R106). -/
theorem latencyBound_encode_quot (h : Word32) : latencyBound (encode (.quot h)) = Config.latQr := by
  simp only [latencyBound, decode_encode]

/-- No hash changes the bound of a REM (R106). -/
theorem latencyBound_encode_rem (h : Word32) : latencyBound (encode (.rem h)) = Config.latQr := by
  simp only [latencyBound, decode_encode]

/-- Settles O50: each of R7's parameters is at least 1, and an encoded lookup decodes to itself whatever its hash. -/
theorem lookupLatencyIgnoresOperands : Obligations.LookupLatencyIgnoresOperands :=
  ⟨one_le_latencyBound, fun h k => ⟨latencyBound_encode_quot h, latencyBound_encode_rem k⟩⟩

end Sys2Proof.Proofs

/-! SUPPORT. The derivation of 40_derive.md as arithmetic: R60's two boundary points decide exactness, and the search
of R57 returns, with a multiplier that fits its register (R59). -/
namespace Sys2Proof.Proofs

open Sys2Proof Sys2Proof.Machine

/-! ## Ceiling division (R9, R55) -/

theorem le_ceilDiv_mul (a : Nat) {d : Nat} (hd : 0 < d) : a ≤ ceilDiv a d * d := by
  have hdiv : d * ((a + d - 1) / d) + (a + d - 1) % d = a + d - 1 := Nat.div_add_mod _ _
  have hmod : (a + d - 1) % d < d := Nat.mod_lt _ hd
  rw [ceilDiv, Nat.mul_comm]
  omega

theorem ceilDiv_mul_lt (a : Nat) {d : Nat} (hd : 0 < d) : ceilDiv a d * d < a + d := by
  have hle : ceilDiv a d * d ≤ a + d - 1 := Nat.div_mul_le_self _ _
  omega

/-- A candidate times its divisor reaches 2^K (R55). -/
theorem two_pow_le_cand_mul {d : Nat} (hd : 0 < d) (s : Nat) : 2 ^ (32 + s) ≤ cand d s * d :=
  le_ceilDiv_mul _ hd

/-- A candidate times its divisor is less than d above 2^K (R55). -/
theorem cand_mul_lt {d : Nat} (hd : 0 < d) (s : Nat) : cand d s * d < 2 ^ (32 + s) + d :=
  ceilDiv_mul_lt _ hd

/-! ## Exactness and the two boundary points (R56, R60) -/

/-- How far `n * m` lies above n div d whole multiples of 2^K (`mul_eq_add_excess`): R60's products are its values at
the two boundary points. -/
def excess (d m s n : Nat) : Nat := n / d * (m * d - 2 ^ (32 + s)) + n % d * m

theorem mul_eq_add_excess {d m s : Nat} (hm : 2 ^ (32 + s) ≤ m * d) (n : Nat) :
    n * m = n / d * 2 ^ (32 + s) + excess d m s n := by
  calc n * m = (d * (n / d) + n % d) * m := by rw [Nat.div_add_mod]
    _ = n / d * (2 ^ (32 + s) + (m * d - 2 ^ (32 + s))) + n % d * m := by
      rw [Nat.add_sub_cancel' hm]; ring
    _ = n / d * 2 ^ (32 + s) + excess d m s n := by rw [excess]; ring

/-- The formula is right for n exactly if the excess is less than one more multiple of 2^K. -/
theorem shiftRight_eq_div_iff {d m s : Nat} (hm : 2 ^ (32 + s) ≤ m * d) (n : Nat) :
    (n * m) >>> (32 + s) = n / d ↔ excess d m s n < 2 ^ (32 + s) := by
  have hK : 0 < 2 ^ (32 + s) := Nat.two_pow_pos _
  rw [Nat.shiftRight_eq_div_pow, mul_eq_add_excess hm, Nat.mul_comm (n / d), Nat.mul_add_div hK,
    Nat.add_eq_left, Nat.div_eq_zero_iff_lt hK]

theorem exact_iff_excess {d m s : Nat} (hm : 2 ^ (32 + s) ≤ m * d) :
    Exact d m s ↔ ∀ n, n < 2 ^ 32 → excess d m s n < 2 ^ (32 + s) :=
  forall₂_congr fun n _ => shiftRight_eq_div_iff hm n

/-- The excess grows with the quotient and with the remainder. -/
theorem excess_le {d m s n q r : Nat} (hq : n / d ≤ q) (hr : n % d ≤ r) :
    excess d m s n ≤ q * (m * d - 2 ^ (32 + s)) + r * m :=
  Nat.add_le_add (Nat.mul_le_mul_right _ hq) (Nat.mul_le_mul_right _ hr)

/-- R60's second point, `Q * d - 1` of a positive Q, has the quotient `Q - 1` and the greatest remainder. -/
theorem excess_pred_mul {d : Nat} (hd : 0 < d) (m s : Nat) {q : Nat} (hq : 0 < q) :
    excess d m s (q * d - 1) = (q - 1) * (m * d - 2 ^ (32 + s)) + (d - 1) * m := by
  obtain ⟨p, rfl⟩ := Nat.exists_eq_succ_of_ne_zero hq.ne'
  have hn : (p + 1) * d - 1 = d - 1 + d * p := by
    rw [Nat.succ_mul, Nat.mul_comm]; omega
  have hlt : d - 1 < d := by omega
  rw [excess, Nat.succ_eq_add_one, hn, Nat.add_mul_div_left _ _ hd, Nat.add_mul_mod_self_left,
    Nat.div_eq_of_lt hlt, Nat.mod_eq_of_lt hlt, Nat.zero_add, Nat.add_sub_cancel]

/-- R60: of all 32-bit n, `2^32 - 1` and the greatest n of full remainder have the greatest excess. -/
theorem exact_iff_boundary {d m s : Nat} (hd : 0 < d) (hm : 2 ^ (32 + s) ≤ m * d) :
    Exact d m s ↔
      (2 ^ 32 - 1) / d * (m * d - 2 ^ (32 + s)) + (2 ^ 32 - 1) % d * m < 2 ^ (32 + s) ∧
        ((2 ^ 32 - 1) / d = 0 ∨
          ((2 ^ 32 - 1) / d - 1) * (m * d - 2 ^ (32 + s)) + (d - 1) * m < 2 ^ (32 + s)) := by
  rw [exact_iff_excess hm]
  have hN : d * ((2 ^ 32 - 1) / d) + (2 ^ 32 - 1) % d = 2 ^ 32 - 1 := Nat.div_add_mod _ _
  constructor
  · intro h
    refine ⟨h (2 ^ 32 - 1) (by omega), (Nat.eq_zero_or_pos _).imp_right fun hq => ?_⟩
    rw [← excess_pred_mul hd m s hq]
    refine h _ ?_
    rw [Nat.mul_comm]
    omega
  · rintro ⟨hlast, hfull⟩ n hn
    have hle : n / d ≤ (2 ^ 32 - 1) / d := Nat.div_le_div_right (by omega)
    obtain heq | hlt := hle.eq_or_lt
    · have hsplit : d * (n / d) + n % d = n := Nat.div_add_mod _ _
      rw [heq] at hsplit
      exact (excess_le heq.le (by omega)).trans_lt hlast
    · have hfull := hfull.resolve_left (Nat.ne_zero_of_lt hlt)
      have hr : n % d < d := Nat.mod_lt _ hd
      exact (excess_le (by omega) (by omega)).trans_lt hfull

/-- The test the machine runs decides exactness (R60, R62). -/
theorem twoPointExact_iff_exact {d m s : Nat} (hd : 0 < d) (hm : 2 ^ (32 + s) ≤ m * d) :
    twoPointExact d m s = true ↔ Exact d m s := by
  simp only [exact_iff_boundary hd hm, twoPointExact, Bool.and_eq_true, Bool.or_eq_true, decide_eq_true_eq]

theorem twoPointExact_cand_iff {d : Nat} (hd : 0 < d) (s : Nat) :
    twoPointExact d (cand d s) s = true ↔ Exact d (cand d s) s :=
  twoPointExact_iff_exact hd (two_pow_le_cand_mul hd s)

/-! ## The search (R57, R59) -/

/-- What the search finds is what R57 defines. -/
theorem derives_of_derive_eq_some {d m s : Nat} (hd : 0 < d) (h : derive d = some (m, s)) : Derives d m s := by
  obtain ⟨hs, rfl, htrue, hfalse⟩ := derive_eq_some d m s h
  refine ⟨hs, rfl, (twoPointExact_cand_iff hd s).mp htrue, fun t ht hex => ?_⟩
  have htest := (twoPointExact_cand_iff hd t).mpr hex
  simp [hfalse t ht] at htest

/-- R59's reason: a candidate's error e is below d, so n * e stays below 2^K once 2^s has reached d. -/
theorem exact_cand_of_le_two_pow {d s : Nat} (hd : 0 < d) (hs : d ≤ 2 ^ s) : Exact d (cand d s) s := by
  have hm := two_pow_le_cand_mul hd s
  refine (exact_iff_excess hm).mpr fun n hn => ?_
  obtain ⟨e, he⟩ := Nat.exists_eq_add_of_le hm
  have hed : e < d := by have := cand_mul_lt hd s; omega
  have hne : n * e < 2 ^ (32 + s) :=
    calc n * e ≤ n * 2 ^ s := Nat.mul_le_mul_left _ (hed.le.trans hs)
      _ < 2 ^ 32 * 2 ^ s := Nat.mul_lt_mul_of_pos_right hn (Nat.two_pow_pos s)
      _ = 2 ^ (32 + s) := (Nat.pow_add 2 32 s).symm
  have hnd : n + 1 ≤ (n / d + 1) * d := by
    rw [Nat.mul_comm]; exact Nat.lt_mul_div_succ n hd
  have hlt : d * (n * cand d s) < d * ((n / d + 1) * 2 ^ (32 + s)) :=
    calc d * (n * cand d s) = n * 2 ^ (32 + s) + n * e := by rw [← Nat.mul_add, ← he]; ring
      _ < (n + 1) * 2 ^ (32 + s) := by rw [Nat.succ_mul]; omega
      _ ≤ (n / d + 1) * d * 2 ^ (32 + s) := Nat.mul_le_mul_right _ hnd
      _ = d * ((n / d + 1) * 2 ^ (32 + s)) := by ring
  have hcancel := Nat.lt_of_mul_lt_mul_left hlt
  rw [mul_eq_add_excess hm, Nat.succ_mul] at hcancel
  omega

/-- The search never passes shift 32 (R59). -/
theorem exists_derive_eq_some {d : Nat} (hd : 0 < d) (hd' : d ≤ 2 ^ 32) : ∃ m s, derive d = some (m, s) := by
  have hfound : ((List.range (maxShift + 1)).find? fun s => twoPointExact d (cand d s) s).isSome :=
    List.find?_isSome.mpr ⟨32, by decide, (twoPointExact_cand_iff hd 32).mpr (exact_cand_of_le_two_pow hd hd')⟩
  obtain ⟨s, hs⟩ := Option.isSome_iff_exists.mp hfound
  exact ⟨cand d s, s, by simp only [derive, hs, Option.map_some]⟩

/-- A derived shift is at most the divisor's bit length (R59). -/
theorem derives_shift_le {d m s l : Nat} (hd : 0 < d) (hl : d ≤ 2 ^ l) (h : Derives d m s) : s ≤ l := by
  obtain ⟨-, -, -, hleast⟩ := h
  by_contra hlt
  exact hleast l (by omega) (exact_cand_of_le_two_pow hd hl)

/-- A candidate whose shift is at most the divisor's bit length k + 1 fits MUL's 33 bits (R59). -/
theorem cand_lt_two_pow_33 {d s k : Nat} (hd : d < 2 ^ 32) (hk : 2 ^ k < d) (hs : s ≤ k + 1) :
    cand d s < 2 ^ 33 := by
  have hcand := cand_mul_lt (Nat.zero_lt_of_lt hk) s
  have hpow : 2 ^ (32 + s) ≤ 2 ^ 33 * 2 ^ k :=
    calc 2 ^ (32 + s) ≤ 2 ^ (33 + k) := Nat.pow_le_pow_right (by decide) (by omega)
      _ = 2 ^ 33 * 2 ^ k := Nat.pow_add 2 33 k
  by_contra hge
  have hmul : 2 ^ 33 * d ≤ cand d s * d := Nat.mul_le_mul_right d (Nat.le_of_not_lt hge)
  omega

/-- An accepted divisor lies strictly between two powers of two, since it is odd and not 1. -/
theorem exists_two_pow_lt {d : Nat} (hodd : d % 2 = 1) (h3 : 3 ≤ d) : ∃ k, 2 ^ k < d ∧ d ≤ 2 ^ (k + 1) := by
  refine ⟨Nat.log2 d, lt_of_le_of_ne (Nat.log2_self_le (by omega)) fun heq => ?_, Nat.lt_log2_self.le⟩
  have hpos : Nat.log2 d ≠ 0 := fun h0 => by rw [h0] at heq; omega
  have heven : 2 ∣ 2 ^ Nat.log2 d := dvd_pow_self 2 hpos
  omega

theorem derives_mult_lt {d m s : Nat} (hodd : d % 2 = 1) (h3 : 3 ≤ d) (hd : d < 2 ^ 32) (h : Derives d m s) :
    m < 2 ^ 33 := by
  obtain ⟨k, hk, hk'⟩ := exists_two_pow_lt hodd h3
  have hs : s ≤ k + 1 := derives_shift_le (by omega) hk' h
  obtain ⟨-, rfl, -⟩ := h
  exact cand_lt_two_pow_33 hd hk hs

/-- What DERIVE loads is a valid triple: the derived pair loses no bit in MUL and SHF (R58, R59). -/
theorem validTriple_of_derive {d : Word32} {m s : Nat} (hd : acceptable d = true)
    (h : derive d.toNat = some (m, s)) : ValidTriple d (BitVec.ofNat 33 m) (BitVec.ofNat 6 s) := by
  obtain ⟨hodd, h3⟩ := (acceptable_iff d).mp hd
  have hder : Derives d.toNat m s := derives_of_derive_eq_some (by omega) h
  have hm : m < 2 ^ 33 := derives_mult_lt hodd h3 d.isLt hder
  have ⟨hle, _⟩ := hder
  have hs : s < 2 ^ 6 := hle.trans_lt (by decide)
  refine ⟨⟨hodd, h3⟩, ?_⟩
  rwa [BitVec.toNat_ofNat, BitVec.toNat_ofNat, Nat.mod_eq_of_lt hm, Nat.mod_eq_of_lt hs]

end Sys2Proof.Proofs

/-! SUPPORT. The registers and the state of 10_state.md: what a command word and a step can do to them, the invariant
every step keeps, and reset. -/
namespace Sys2Proof.Proofs

open Sys2Proof Sys2Proof.Machine

/-! ## What an error does to the flags (R18, R84, R85) -/

/-- Once FIRSTERR is not 0, no status changes it (R85). -/
theorem firstErrAfter_of_ne_zero (st : Status) {fe : BitVec 8} (h : fe ≠ 0) : firstErrAfter st fe = fe :=
  if_neg fun hst => h hst.2

/-- A failing command leaves FIRSTERR other than 0 (R85). -/
theorem firstErrAfter_ne_zero {e : Status} (he : e ≠ .ok) (fe : BitVec 8) : firstErrAfter e fe ≠ 0 := by
  rw [firstErrAfter_error e fe he]
  split
  · exact mt (statusCode_eq_zero_iff e).mp he
  · assumption

/-- Every status but the reserved one has a code a conforming unit produces (R77, R80). -/
theorem statusCode_mem_producedCodes {st : Status} (h : st ≠ .derivationInvariantViolation) :
    statusCode st ∈ producedCodes := by
  cases st with
  | derivationInvariantViolation => exact absurd rfl h
  | ok | invalidDivisor | illegalCommand | noInfo | invalidShift => decide

theorem firstErrAfter_mem_producedCodes {st : Status} (h : st ≠ .derivationInvariantViolation) {fe : BitVec 8}
    (hfe : fe ∈ producedCodes) : firstErrAfter st fe ∈ producedCodes := by
  unfold firstErrAfter
  split
  · exact statusCode_mem_producedCodes h
  · exact hfe

/-! ## What a command word does -/

theorem performWord_of_ok {w : CmdWord} {i : Instr} (hw : decode w = .ok i) (s : State) :
    performWord w s = exec i s := by
  simp only [performWord, hw]

theorem performWord_of_error {w : CmdWord} {e : DecodeError} (hw : decode w = .error e) (s : State) :
    performWord w s = .next (s.raiseError .illegalCommand) := by
  simp only [performWord, hw, execIllegal]

/-- The word is a DERIVE or an LDINFO: what `LeavesTriple` leaves out (`leavesTriple_or_loadsTriple`). -/
def LoadsTriple (w : CmdWord) : Prop :=
  (∃ d, decode w = .ok (.derive d)) ∨ ∃ d m sh, decode w = .ok (.ldinfo d m sh)

theorem leavesTriple_or_loadsTriple (w : CmdWord) : LeavesTriple w ∨ LoadsTriple w := by
  unfold LeavesTriple LoadsTriple
  rcases decode w with e | i
  · exact .inl trivial
  · cases i with
    | derive d => exact .inr (.inl ⟨d, rfl⟩)
    | ldinfo d m sh => exact .inr (.inr ⟨d, m, sh, rfl⟩)
    | rdinfo => exact .inl trivial
    | quot h => exact .inl trivial
    | rem h => exact .inl trivial

/-- A lookup, an RDINFO or an illegal word ends with an error that leaves VLD, or with OK and the registers as they
are (R67, R68, R74, R81). -/
theorem performWord_leavesTriple_cases {w : CmdWord} {s t : State} (hw : LeavesTriple w)
    (h : performWord w s = .next t) :
    (∃ e, (e = .noInfo ∨ e = .illegalCommand) ∧ t = s.raiseError e) ∨
      (∃ x, t = s.completeWithX x) ∨ t = s.completeWithTriple := by
  obtain ⟨e, -, rfl⟩ | ⟨i, hi, h⟩ := performWord_cases w s t h
  · exact .inl ⟨_, .inr rfl, rfl⟩
  · cases i with
    | derive d => simp [LeavesTriple, hi] at hw
    | ldinfo d m sh => simp [LeavesTriple, hi] at hw
    | rdinfo =>
      obtain rfl : s.completeWithTriple = t := by simpa [exec, execRdinfo] using h
      exact .inr (.inr rfl)
    | quot x =>
      obtain ⟨-, h'⟩ | ⟨-, h'⟩ := execQuot_cases x s <;> obtain rfl : t = _ := by simpa using h.symm.trans h'
      · exact .inl ⟨_, .inl rfl, rfl⟩
      · exact .inr (.inl ⟨_, rfl⟩)
    | rem x =>
      obtain ⟨-, h'⟩ | ⟨-, h'⟩ := execRem_cases x s <;> obtain rfl : t = _ := by simpa using h.symm.trans h'
      · exact .inl ⟨_, .inl rfl, rfl⟩
      · exact .inr (.inl ⟨_, rfl⟩)

/-- Such a word leaves the triple and VLD (R13, R18). -/
theorem performWord_leavesTriple_frame {w : CmdWord} {s t : State} (hw : LeavesTriple w)
    (h : performWord w s = .next t) : t.div = s.div ∧ t.mul = s.mul ∧ t.shf = s.shf ∧ t.vld = s.vld := by
  obtain ⟨e, rfl | rfl, rfl⟩ | ⟨x, rfl⟩ | rfl := performWord_leavesTriple_cases hw h <;> simp

/-- A DERIVE or LDINFO rejects its operands, or loads a triple (R58, R73, R79, R83). -/
theorem performWord_loadsTriple_cases {w : CmdWord} {s t : State} (hw : LoadsTriple w) (h : performWord w s = .next t) :
    (∃ e, (e = .invalidDivisor ∨ e = .invalidShift) ∧ t = s.raiseError e) ∨
      ∃ d m sh, t = (s.loadTriple d m sh).completeWithX 0 ∨ t = (s.loadTriple d m sh).completeWithTriple := by
  obtain ⟨d, hw⟩ | ⟨d, m, sh, hw⟩ := hw <;> rw [performWord_of_ok hw] at h
  · obtain ⟨-, rfl⟩ | ⟨-, m, sh, -, rfl⟩ := execDerive_cases d s t h
    · exact .inl ⟨_, .inl rfl, rfl⟩
    · exact .inr ⟨_, _, _, .inr rfl⟩
  · obtain ⟨-, h'⟩ | ⟨-, -, h'⟩ | ⟨-, -, h'⟩ := execLdinfo_cases d m sh s <;>
      obtain rfl : t = _ := by simpa using h.symm.trans h'
    · exact .inl ⟨_, .inl rfl, rfl⟩
    · exact .inl ⟨_, .inr rfl, rfl⟩
    · exact .inr ⟨_, _, _, .inl rfl⟩

/-- The one response of a DERIVE or LDINFO tells the two apart: OK with the triple loaded and VLD 1, or an error with
the triple as it was and VLD 0 (R18, R84). -/
theorem performWord_loadsTriple_response {w : CmdWord} {s t : State} {r : RspWord} (hw : LoadsTriple w)
    (h : performWord w s = .next t) (hr : t.undelivered = s.undelivered ++ [r]) :
    (rspStatus r = 0x00 ∧ t.vld = true) ∨
      (rspStatus r ≠ 0x00 ∧ t.vld = false ∧ t.div = s.div ∧ t.mul = s.mul ∧ t.shf = s.shf) := by
  obtain ⟨e, he, rfl⟩ | ⟨d, m, sh, rfl | rfl⟩ := performWord_loadsTriple_cases hw h <;>
    obtain rfl := List.singleton_inj.mp (List.append_cancel_left hr)
  · rw [rspStatus_rspWord]
    obtain rfl | rfl := he
    · exact .inr ⟨by decide, rfl, rfl, rfl, rfl⟩
    · exact .inr ⟨by decide, rfl, rfl, rfl, rfl⟩
  · exact .inl ⟨rspStatus_rspWord .., rfl⟩
  · exact .inl ⟨rspStatus_rspWord .., rfl⟩

/-- Settles O23: the words that leave the triple leave VLD too, and a DERIVE or LDINFO sets or clears it with its
status. -/
theorem vldRule : Obligations.VldRule := by
  refine ⟨fun w s t r h hr => ?_, State.resetUnit_vld⟩
  have kept (hw : LeavesTriple w) : t.vld = s.vld := by
    obtain ⟨-, -, -, hvld⟩ := performWord_leavesTriple_frame hw h
    exact hvld
  have loaded (hw : LoadsTriple w) : t.vld = decide (rspStatus r = 0x00) := by
    obtain ⟨hst, hv⟩ | ⟨hst, hv, -⟩ := performWord_loadsTriple_response hw h hr
    · rw [hv, decide_eq_true hst]
    · rw [hv, decide_eq_false hst]
  rcases hw : decode w with e | i
  · exact kept (by simp only [LeavesTriple, hw])
  · cases i with
    | derive d => exact loaded (.inl ⟨d, hw⟩)
    | ldinfo d m sh => exact loaded (.inr ⟨d, m, sh, hw⟩)
    | rdinfo => exact kept (by simp only [LeavesTriple, hw])
    | quot x => exact kept (by simp only [LeavesTriple, hw])
    | rem x => exact kept (by simp only [LeavesTriple, hw])

/-- Settles O24: a word that leaves the triple, or fails, changes none of its registers. -/
theorem onlyOkDeriveOrLdinfoWritesTheTriple : Obligations.OnlyOkDeriveOrLdinfoWritesTheTriple := by
  intro w s t r h hr hchanged
  obtain hw | hw := leavesTriple_or_loadsTriple w
  · obtain ⟨hdiv, hmul, hshf, -⟩ := performWord_leavesTriple_frame hw h
    simp [hdiv, hmul, hshf] at hchanged
  · obtain ⟨hst, -⟩ | ⟨-, -, hdiv, hmul, hshf⟩ := performWord_loadsTriple_response hw h hr
    · exact ⟨hst, hw⟩
    · simp [hdiv, hmul, hshf] at hchanged

/-- Settles O48: a DERIVE loads what R57 derives, an LDINFO what the premise says is valid, and every other end of a
command leaves the triple in use or clears VLD. -/
theorem tripleInUseStaysValid : Obligations.TripleInUseStaysValid := by
  intro w s t hs hload h
  obtain hw | ⟨d, hw⟩ | ⟨d, m, sh, hw⟩ := leavesTriple_or_loadsTriple w
  · obtain ⟨hdiv, hmul, hshf, hvld⟩ := performWord_leavesTriple_frame hw h
    simpa only [TripleInUseValid, hdiv, hmul, hshf, hvld] using hs
  · rw [performWord_of_ok hw] at h
    obtain ⟨-, rfl⟩ | ⟨hd, m, sh, hm, rfl⟩ := execDerive_cases d s t h
    · simp [TripleInUseValid]
    · exact fun _ => validTriple_of_derive hd hm
  · rw [performWord_of_ok hw] at h
    obtain ⟨-, h'⟩ | ⟨-, -, h'⟩ | ⟨-, -, h'⟩ := execLdinfo_cases d m sh s <;>
      obtain rfl : t = _ := by simpa using h.symm.trans h'
    · simp [TripleInUseValid]
    · simp [TripleInUseValid]
    · exact fun _ => hload d m sh hw

/-! ## Nothing hidden decides (R22, R23) -/

/-- From `s` and from `u`, a command has left the same registers and given the same response. -/
def SameEnd (s u t v : State) : Prop :=
  SameRegisters t v ∧ ∃ r, t.undelivered = s.undelivered ++ [r] ∧ v.undelivered = u.undelivered ++ [r]

section SameEnd
variable {s u : State}

theorem sameRegisters_loadTriple (hsu : SameRegisters s u) (d : Word32) (m : Mult) (sh : Shift) :
    SameRegisters (s.loadTriple d m sh) (u.loadTriple d m sh) := by
  obtain ⟨-, -, -, -, hfe⟩ := hsu
  exact ⟨rfl, rfl, rfl, rfl, hfe⟩

theorem sameEnd_raiseError (hsu : SameRegisters s u) (e : Status) :
    SameEnd s u (s.raiseError e) (u.raiseError e) := by
  obtain ⟨hdiv, hmul, hshf, hvld, hfe⟩ := hsu
  exact ⟨⟨hdiv, hmul, hshf, by simp [hvld], by simp [hfe]⟩, _, State.raiseError_undelivered s e, by simp [hvld, hfe]⟩

theorem sameEnd_completeWithX (hsu : SameRegisters s u) (x : Word32) :
    SameEnd s u (s.completeWithX x) (u.completeWithX x) := by
  have ⟨_, _, _, hvld, hfe⟩ := hsu
  exact ⟨hsu, _, State.completeWithX_undelivered s x, by simp [hvld, hfe]⟩

theorem sameEnd_completeWithTriple (hsu : SameRegisters s u) :
    SameEnd s u s.completeWithTriple u.completeWithTriple := by
  have ⟨hdiv, hmul, hshf, hvld, hfe⟩ := hsu
  exact ⟨hsu, _, State.completeWithTriple_undelivered s, by simp [hdiv, hmul, hshf, hvld, hfe]⟩

end SameEnd

theorem execDerive_of_rejected {d : Word32} (hd : acceptable d = false) (s : State) :
    execDerive d s = .next (s.raiseError .invalidDivisor) := by
  simp only [execDerive, hd, if_true]

/-- DERIVE of an accepted divisor ends the same way in every state: the search returns (R58, R59). -/
theorem execDerive_of_acceptable {d : Word32} (hd : acceptable d = true) :
    ∃ m sh, ∀ s : State, execDerive d s = .next (s.loadTriple d m sh).completeWithTriple := by
  obtain ⟨-, h3⟩ := (acceptable_iff d).mp hd
  obtain ⟨m, sh, hm⟩ := exists_derive_eq_some (by omega) d.isLt.le
  refine ⟨BitVec.ofNat 33 m, BitVec.ofNat 6 sh, fun s => ?_⟩
  simp only [execDerive, hd, hm, Bool.true_eq_false, if_false]

/-- How a command ends, and with what, its registers decide alone (R22, R61, R71). -/
theorem exec_sameEnd (i : Instr) {s u : State} (hsu : SameRegisters s u) :
    ∃ t v, exec i s = .next t ∧ exec i u = .next v ∧ SameEnd s u t v := by
  have ⟨hdiv, hmul, hshf, hvld, _⟩ := hsu
  cases i with
  | derive d =>
    cases hd : acceptable d with
    | false =>
      exact ⟨_, _, execDerive_of_rejected hd s, execDerive_of_rejected hd u, sameEnd_raiseError hsu _⟩
    | true =>
      obtain ⟨m, sh, hload⟩ := execDerive_of_acceptable hd
      exact ⟨_, _, hload s, hload u, sameEnd_completeWithTriple (sameRegisters_loadTriple hsu d m sh)⟩
  | ldinfo d m sh =>
    by_cases hd : acceptable d = false
    · exact ⟨s.raiseError _, u.raiseError _, if_pos hd, if_pos hd, sameEnd_raiseError hsu _⟩
    · by_cases hsh : maxShift < sh.toNat
      · exact ⟨s.raiseError _, u.raiseError _, (if_neg hd).trans (if_pos hsh), (if_neg hd).trans (if_pos hsh),
          sameEnd_raiseError hsu _⟩
      · exact ⟨_, _, (if_neg hd).trans (if_neg hsh), (if_neg hd).trans (if_neg hsh),
          sameEnd_completeWithX (sameRegisters_loadTriple hsu d m sh) 0⟩
  | rdinfo => exact ⟨_, _, rfl, rfl, sameEnd_completeWithTriple hsu⟩
  | quot x =>
    by_cases hv : s.vld = false
    · exact ⟨s.raiseError _, u.raiseError _, if_pos hv, if_pos (hvld ▸ hv), sameEnd_raiseError hsu _⟩
    · refine ⟨_, _, if_neg hv, if_neg (hvld ▸ hv), ?_⟩
      rw [hmul, hshf]
      exact sameEnd_completeWithX hsu _
  | rem x =>
    by_cases hv : s.vld = false
    · exact ⟨s.raiseError _, u.raiseError _, if_pos hv, if_pos (hvld ▸ hv), sameEnd_raiseError hsu _⟩
    · refine ⟨_, _, if_neg hv, if_neg (hvld ▸ hv), ?_⟩
      rw [hdiv, hmul, hshf]
      exact sameEnd_completeWithX hsu _

/-- Settles O25: an illegal word and every command end alike in states with the same registers. -/
theorem responsesDependOnRegistersAlone : Obligations.ResponsesDependOnRegistersAlone := by
  intro w s u hsu
  rcases hw : decode w with e | i
  · obtain ⟨hregs, r, ht, hv⟩ := sameEnd_raiseError hsu .illegalCommand
    exact ⟨_, _, r, performWord_of_error hw s, performWord_of_error hw u, hregs, ht, hv⟩
  · obtain ⟨t, v, hst, huv, hregs, r, ht, hv⟩ := exec_sameEnd i hsu
    exact ⟨t, v, r, (performWord_of_ok hw s).trans hst, (performWord_of_ok hw u).trans huv, hregs, ht, hv⟩

/-! ## What one step does -/

/-- The state with the next event, if there is one, taken from the script. -/
def popEvent (s : State) : State := { s with events := s.events.tail }

theorem popEvent_of_nil {s : State} (h : s.events = []) : popEvent s = s := by
  rw [popEvent, h, List.tail_nil, ← h]

/-- With an empty script the unit works off what it has accepted (R104). -/
theorem step_of_no_event {s : State} (h : s.events = []) : step s = performNext (popEvent s) := by
  simp only [step, advance, h, popEvent_of_nil h]

theorem step_of_event {s : State} {e : Event} {rest : List Event} (h : s.events = e :: rest) :
    step s = runEvent e (popEvent s) := by
  simp only [step, advance, popEvent, h, List.tail_cons]

/-- The unit performs a word, idles or stalls, or the interface moves and no register is written but by a reset (R34,
R95, R103). -/
theorem step_cases {s t : State} (h : step s = .next t) :
    (∃ w rest, s.inFlight = w :: rest ∧ s.undelivered.length < Config.responseCapacity ∧
      performWord w { popEvent s with inFlight := rest } = .next t) ∨
    t = popEvent s ∨ (∃ w, t = (popEvent s).acceptWord w) ∨ (∃ b, t = (popEvent s).acceptByte b) ∨
    t = (popEvent s).deliver ∨ (s.events.head? = some .reset ∧ t = (popEvent s).resetUnit) := by
  have performed (h : performNext (popEvent s) = .next t) :
      (∃ w rest, s.inFlight = w :: rest ∧ s.undelivered.length < Config.responseCapacity ∧
        performWord w { popEvent s with inFlight := rest } = .next t) ∨ t = popEvent s := by
    obtain ⟨w, rest, hw, hroom, hp⟩ | ⟨-, hp⟩ := performNext_cases (popEvent s) <;> rw [hp] at h
    · exact .inl ⟨w, rest, hw, (popEvent s).hasResponseRoom_iff.mp hroom, h⟩
    · exact .inr (Host.Outcome.next.inj h).symm
  cases hev : s.events with
  | nil =>
    rw [step_of_no_event hev] at h
    exact (performed h).imp_right .inl
  | cons e rest =>
    rw [step_of_event hev] at h
    cases e with
    | command w => exact .inr (.inr (.inl ⟨w, (Host.Outcome.next.inj h).symm⟩))
    | commandByte b => exact .inr (.inr (.inr (.inl ⟨b, (Host.Outcome.next.inj h).symm⟩)))
    | stalled w => exact .inr (.inl (Host.Outcome.next.inj h).symm)
    | perform => exact (performed h).imp_right .inl
    | takeResponse => exact .inr (.inr (.inr (.inr (.inl (Host.Outcome.next.inj h).symm))))
    | reset => exact .inr (.inr (.inr (.inr (.inr ⟨rfl, (Host.Outcome.next.inj h).symm⟩))))

/-! ## FIRSTERR over a step (R19, R85) -/

theorem performWord_firstErr_of_ne_zero {w : CmdWord} {s t : State} (hfe : s.firstErr ≠ 0)
    (h : performWord w s = .next t) : t.firstErr = s.firstErr := by
  obtain hw | hw := leavesTriple_or_loadsTriple w
  · obtain ⟨e, -, rfl⟩ | ⟨x, rfl⟩ | rfl := performWord_leavesTriple_cases hw h
    · exact firstErrAfter_of_ne_zero e hfe
    · rfl
    · rfl
  · obtain ⟨e, -, rfl⟩ | ⟨d, m, sh, rfl | rfl⟩ := performWord_loadsTriple_cases hw h
    · exact firstErrAfter_of_ne_zero e hfe
    · rfl
    · rfl

theorem sameRegisters_acceptWord (s : State) (w : CmdWord) : SameRegisters (s.acceptWord w) s := by
  obtain ⟨-, h⟩ | ⟨-, h⟩ := s.acceptWord_cases w <;> rw [h] <;> exact ⟨rfl, rfl, rfl, rfl, rfl⟩

theorem sameRegisters_acceptByte (s : State) (b : Byte) : SameRegisters (s.acceptByte b) s := by
  obtain ⟨-, h⟩ | ⟨-, -, h⟩ | ⟨-, -, h⟩ := s.acceptByte_cases b <;> rw [h] <;> exact ⟨rfl, rfl, rfl, rfl, rfl⟩

theorem sameRegisters_deliver (s : State) : SameRegisters s.deliver s := by
  obtain ⟨-, h⟩ | ⟨r, rs, -, h⟩ := s.deliver_cases <;> rw [h] <;> exact ⟨rfl, rfl, rfl, rfl, rfl⟩

/-- Settles O22: a performed word keeps a FIRSTERR that is not 0, and short of a reset nothing else writes it. -/
theorem onlyResetClearsFirstErr : Obligations.OnlyResetClearsFirstErr := by
  intro s t h hfe hreset
  obtain ⟨w, rest, -, -, hp⟩ | rfl | ⟨w, rfl⟩ | ⟨b, rfl⟩ | rfl | ⟨hev, -⟩ := step_cases h
  · exact performWord_firstErr_of_ne_zero (s := { popEvent s with inFlight := rest }) hfe hp
  · rfl
  · obtain ⟨-, -, -, -, hkept⟩ := sameRegisters_acceptWord (popEvent s) w
    exact hkept
  · obtain ⟨-, -, -, -, hkept⟩ := sameRegisters_acceptByte (popEvent s) b
    exact hkept
  · obtain ⟨-, -, -, -, hkept⟩ := sameRegisters_deliver (popEvent s)
    exact hkept
  · exact absurd hev hreset

/-! ## The invariant (R17, R19, R20, R41, R77, R103) -/

/-- A response with status OK may show any result (R41). -/
theorem responseLegal_ok (x y : Word32) (rshf : Shift) (rmul32 : BitVec 1) (v : Bool) {fe : BitVec 8}
    (hfe : fe ∈ producedCodes) : ResponseLegal (rspWord 0x00 x y rshf rmul32 v fe) := by
  refine ⟨?_, rspZero_rspWord .., ?_, fun hst => absurd (rspStatus_rspWord ..) hst⟩
  · rw [rspStatus_rspWord]; decide
  · rwa [rspFirstErr_rspWord]

/-- A failing response has no result, and its RFIRSTERR shows a failure (R84, R85). -/
theorem responseLegal_error {e : Status} (hok : e ≠ .ok) (hres : e ≠ .derivationInvariantViolation) (v : Bool)
    {fe : BitVec 8} (hfe : fe ∈ producedCodes) :
    ResponseLegal (rspWord (statusCode e) 0 0 0 0 v (firstErrAfter e fe)) := by
  refine ⟨?_, rspZero_rspWord .., ?_, fun _ => ⟨rspX_rspWord .., rspY_rspWord .., rspShf_rspWord ..,
    rspMul32_rspWord .., ?_⟩⟩
  · rw [rspStatus_rspWord]
    exact statusCode_mem_producedCodes hres
  · rw [rspFirstErr_rspWord]
    exact firstErrAfter_mem_producedCodes hres hfe
  · rw [rspFirstErr_rspWord]
    exact firstErrAfter_ne_zero hok fe

/-- What completing a command has to keep for the invariant: with room for it, one legal response is added (R103). -/
theorem legal_of_response {s t : State} {r : RspWord} (hs : Legal s)
    (hroom : s.undelivered.length < Config.responseCapacity) (hregs : RegistersLegal t)
    (hfe : t.firstErr ∈ producedCodes) (hund : t.undelivered = s.undelivered ++ [r]) (hr : ResponseLegal r)
    (hdel : t.delivered = s.delivered) (hpart : t.partialWord = s.partialWord) (hin : t.inFlight = s.inFlight) :
    Legal t := by
  obtain ⟨-, -, hunds, hdels, hparts, -, hins⟩ := hs
  refine ⟨hregs, hfe, ?_, hdel ▸ hdels, hpart ▸ hparts, ?_, hin ▸ hins⟩
  · rw [hund]
    exact List.forall_mem_append.mpr ⟨hunds, List.forall_mem_singleton.mpr hr⟩
  · simp only [hund, List.length_append, List.length_singleton]
    omega

section Legal
variable {s : State}

theorem legal_popEvent (hs : Legal s) : Legal (popEvent s) := hs

/-- The invariant holds without the oldest command in flight. -/
theorem legal_dropOldest (hs : Legal s) {w : CmdWord} {rest : List CmdWord} (hw : s.inFlight = w :: rest) :
    Legal { s with inFlight := rest } := by
  obtain ⟨hregs, hfe, hund, hdel, hpart, hunds, hins⟩ := hs
  refine ⟨hregs, hfe, hund, hdel, hpart, hunds, ?_⟩
  rw [hw, List.length_cons] at hins
  exact (Nat.le_succ _).trans hins

theorem legal_loadTriple (hs : Legal s) {d : Word32} {sh : Shift} (hd : acceptable d = true) (hsh : sh.toNat ≤ 32)
    (m : Mult) : Legal (s.loadTriple d m sh) := by
  obtain ⟨-, hrest⟩ := hs
  exact ⟨⟨hsh, fun _ => (acceptable_iff d).mp hd⟩, hrest⟩

/-- An error clears VLD or leaves it, so it cannot make a triple count as accepted. -/
theorem vld_of_vldAfterError {e : Status} {v : Bool} (h : vldAfterError e v = true) : v = true := by
  cases e with
  | ok | derivationInvariantViolation | illegalCommand | noInfo => exact h
  | invalidDivisor | invalidShift => cases h

theorem legal_raiseError (hs : Legal s) (hroom : s.undelivered.length < Config.responseCapacity) {e : Status}
    (hok : e ≠ .ok) (hres : e ≠ .derivationInvariantViolation) : Legal (s.raiseError e) := by
  have ⟨⟨hshf, hdiv⟩, hfe, _⟩ := hs
  exact legal_of_response hs hroom ⟨hshf, fun hv => hdiv (vld_of_vldAfterError hv)⟩
    (firstErrAfter_mem_producedCodes hres hfe) (State.raiseError_undelivered s e)
    (responseLegal_error hok hres _ hfe) rfl rfl rfl

theorem legal_completeWithX (hs : Legal s) (hroom : s.undelivered.length < Config.responseCapacity) (x : Word32) :
    Legal (s.completeWithX x) := by
  have ⟨hregs, hfe, _⟩ := hs
  exact legal_of_response hs hroom hregs hfe (State.completeWithX_undelivered s x)
    (responseLegal_ok _ _ _ _ _ hfe) rfl rfl rfl

theorem legal_completeWithTriple (hs : Legal s) (hroom : s.undelivered.length < Config.responseCapacity) :
    Legal s.completeWithTriple := by
  have ⟨hregs, hfe, _⟩ := hs
  exact legal_of_response hs hroom hregs hfe (State.completeWithTriple_undelivered s)
    (responseLegal_ok _ _ _ _ _ hfe) rfl rfl rfl

/-- Performing a word with room for its response keeps the invariant. -/
theorem legal_performWord (hs : Legal s) (hroom : s.undelivered.length < Config.responseCapacity) {w : CmdWord}
    {t : State} (h : performWord w s = .next t) : Legal t := by
  obtain ⟨-, -, rfl⟩ | ⟨i, -, h⟩ := performWord_cases w s t h
  · exact legal_raiseError hs hroom (by decide) (by decide)
  · obtain ⟨e, he, rfl⟩ | ⟨x, rfl⟩ | rfl | ⟨d, m, sh, hd, hsh, rfl | rfl⟩ := exec_cases i s t h
    · obtain rfl | rfl | rfl := he <;> exact legal_raiseError hs hroom (by decide) (by decide)
    · exact legal_completeWithX hs hroom x
    · exact legal_completeWithTriple hs hroom
    · exact legal_completeWithX (legal_loadTriple hs hd hsh m) hroom 0
    · exact legal_completeWithTriple (legal_loadTriple hs hd hsh m) hroom

theorem legal_pushCommand (hs : Legal s) (hroom : s.hasPipelineRoom = true) (w : CmdWord) :
    Legal { s with inFlight := s.inFlight ++ [w] } := by
  obtain ⟨hregs, hfe, hund, hdel, hpart, hunds, -⟩ := hs
  refine ⟨hregs, hfe, hund, hdel, hpart, hunds, ?_⟩
  rw [List.length_append]
  exact s.hasPipelineRoom_iff.mp hroom

theorem legal_setPartialWord (hs : Legal s) {bs : List Byte} (hbs : bs.length < 12) :
    Legal { s with partialWord := bs } := by
  obtain ⟨hregs, hfe, hund, hdel, -, hfit⟩ := hs
  exact ⟨hregs, hfe, hund, hdel, hbs, hfit⟩

theorem legal_acceptWord (hs : Legal s) (w : CmdWord) : Legal (s.acceptWord w) := by
  obtain ⟨hroom, h⟩ | ⟨-, h⟩ := s.acceptWord_cases w <;> rw [h]
  · exact legal_pushCommand hs hroom w
  · exact hs

theorem legal_acceptByte (hs : Legal s) (b : Byte) : Legal (s.acceptByte b) := by
  obtain ⟨hlt, h⟩ | ⟨-, hroom, h⟩ | ⟨-, -, h⟩ := s.acceptByte_cases b <;> rw [h]
  · exact legal_setPartialWord hs (by rw [List.length_append]; exact Nat.succ_lt_succ hlt)
  · exact legal_setPartialWord (legal_pushCommand hs hroom _) (by decide : ([] : List Byte).length < 12)
  · exact hs

/-- A response the host takes stays legal as a delivered one. -/
theorem legal_deliver (hs : Legal s) : Legal s.deliver := by
  obtain ⟨-, h⟩ | ⟨r, rs, hrs, h⟩ := s.deliver_cases <;> rw [h]
  · exact hs
  · obtain ⟨hregs, hfe, hund, hdel, hpart, hunds, hins⟩ := hs
    rw [hrs] at hund hunds
    obtain ⟨hr, hund⟩ := List.forall_mem_cons.mp hund
    exact ⟨hregs, hfe, hund, List.forall_mem_append.mpr ⟨hdel, List.forall_mem_singleton.mpr hr⟩, hpart,
      (Nat.le_succ _).trans hunds, hins⟩

/-- A unit just reset is legal, given that what it delivered before is. -/
theorem legal_resetUnit (hdel : ∀ r ∈ s.delivered, ResponseLegal r) : Legal s.resetUnit := by
  refine ⟨⟨Nat.zero_le _, fun hv => ?_⟩, .head _, fun r hr => ?_, hdel, Nat.succ_pos _, Nat.zero_le _, Nat.zero_le _⟩
  · cases hv
  · cases hr

end Legal

/-- Settles O46: the invariant, event by event. -/
theorem stepKeepsLegal : Obligations.StepKeepsLegal := by
  intro s t hs h
  have hpop := legal_popEvent hs
  obtain ⟨w, rest, hw, hroom, hp⟩ | rfl | ⟨w, rfl⟩ | ⟨b, rfl⟩ | rfl | ⟨-, rfl⟩ := step_cases h
  · exact legal_performWord (legal_dropOldest hpop hw) hroom hp
  · exact hpop
  · exact legal_acceptWord hpop w
  · exact legal_acceptByte hpop b
  · exact legal_deliver hpop
  · obtain ⟨-, -, -, hdel, -⟩ := hs
    exact legal_resetUnit hdel

/-! ## Reset (R26, R97, R98) -/

/-- Settles O47: it is the reset of a unit that has delivered nothing. -/
theorem resetIsLegal : Obligations.ResetIsLegal :=
  legal_resetUnit (s := State.reset) (List.forall_mem_nil _)

/-- Settles O12: the table of R26, and the unit that a reset event leaves. -/
theorem resetClearsRegistersAndDiscards : Obligations.ResetClearsRegistersAndDiscards := by
  refine ⟨⟨rfl, rfl, rfl, rfl, rfl, rfl, rfl⟩, fun s rest h => ⟨(popEvent s).resetUnit, step_of_event h, ?_⟩⟩
  exact ⟨rfl, rfl, rfl, rfl, rfl, rfl, rfl, rfl, congrArg List.tail h⟩

end Sys2Proof.Proofs

/-! SUPPORT. The memory and the interface of 20_memory.md: the byte order of a serialized word (R29), words that arrive
byte by byte (R30), the one response of a command (R35), and the sequential fold behind every schedule (R34, R102). -/
namespace Sys2Proof.Proofs

open Sys2Proof Sys2Proof.Machine

/-! ## Serialized words (R29) -/

@[simp] theorem wordToBytes_length (w : CmdWord) : (wordToBytes w).length = 12 := by
  simp only [wordToBytes, List.length_map, List.length_range]

/-- A byte is a digit to base 256, so Mathlib's digit lemmas apply. -/
theorem bytesToNat_eq_ofDigits (bs : List Byte) : bytesToNat bs = Nat.ofDigits 256 (bs.map BitVec.toNat) := by
  induction bs with
  | nil => rfl
  | cons b bs ih => simp only [bytesToNat, ih, List.map_cons, Nat.ofDigits_cons]

theorem toNat_mem_bytes_lt {bs : List Byte} : ∀ n ∈ bs.map BitVec.toNat, n < 256 :=
  List.forall_mem_map.mpr fun b _ => b.isLt

theorem bytesToNat_lt (bs : List Byte) : bytesToNat bs < 256 ^ bs.length := by
  rw [bytesToNat_eq_ofDigits]
  simpa only [List.length_map] using Nat.ofDigits_lt_base_pow_length (by decide) toNat_mem_bytes_lt

theorem bytesToNat_concat (bs : List Byte) (b : Byte) :
    bytesToNat (bs ++ [b]) = bytesToNat bs + 256 ^ bs.length * b.toNat := by
  simp only [bytesToNat_eq_ofDigits, List.map_append, List.map_cons, List.map_nil, Nat.ofDigits_append,
    Nat.ofDigits_singleton, List.length_map]

theorem bytesToNat_inj {bs cs : List Byte} (hlen : bs.length = cs.length) (h : bytesToNat bs = bytesToNat cs) :
    bs = cs := by
  rw [bytesToNat_eq_ofDigits, bytesToNat_eq_ofDigits] at h
  refine List.map_injective_iff.mpr (fun _ _ => BitVec.eq_of_toNat_eq) ?_
  exact Nat.ofDigits_inj_of_len_eq (by decide) (by simpa only [List.length_map] using hlen) toNat_mem_bytes_lt
    toNat_mem_bytes_lt h

/-- The low n bytes of a word are its number modulo 256 ^ n. -/
theorem bytesToNat_low_bytes (w : CmdWord) (n : Nat) :
    bytesToNat ((List.range n).map fun k => w.extractLsb' (8 * k) 8) = w.toNat % 256 ^ n := by
  induction n with
  | zero => simp [bytesToNat, Nat.mod_one]
  | succ n ih =>
    have hbyte : (w.extractLsb' (8 * n) 8).toNat = w.toNat / 256 ^ n % 256 := by
      rw [BitVec.extractLsb'_toNat, Nat.shiftRight_eq_div_pow, Nat.pow_mul]
    rw [List.range_succ, List.map_append, List.map_singleton, bytesToNat_concat, ih, hbyte, List.length_map,
      List.length_range, Nat.mod_pow_succ]

theorem bytesToNat_wordToBytes (w : CmdWord) : bytesToNat (wordToBytes w) = w.toNat :=
  (bytesToNat_low_bytes w 12).trans (Nat.mod_eq_of_lt w.isLt)

@[simp] theorem bytesToWord_wordToBytes (w : CmdWord) : bytesToWord (wordToBytes w) = w := by
  rw [bytesToWord, bytesToNat_wordToBytes, BitVec.ofNat_toNat, BitVec.setWidth_eq]

theorem toNat_bytesToWord {bs : List Byte} (h : bs.length = 12) : (bytesToWord bs).toNat = bytesToNat bs := by
  have hlt : bytesToNat bs < 2 ^ 96 := (bytesToNat_lt bs).trans_eq (by rw [h]; rfl)
  rw [bytesToWord, BitVec.toNat_ofNat, Nat.mod_eq_of_lt hlt]

/-- Twelve bytes are the bytes of the word they give: both lists stand for one number. -/
theorem wordToBytes_bytesToWord {bs : List Byte} (h : bs.length = 12) : wordToBytes (bytesToWord bs) = bs :=
  bytesToNat_inj ((wordToBytes_length _).trans h.symm) ((bytesToNat_wordToBytes _).trans (toNat_bytesToWord h))

theorem getElem?_wordToBytes (w : CmdWord) {k : Nat} (hk : k < 12) :
    (wordToBytes w)[k]? = some (w.extractLsb' (8 * k) 8) := by
  simp only [wordToBytes, List.getElem?_map, List.getElem?_range hk, Option.map_some]

/-- Settles O2: serializing and assembling are inverse, since a word's bytes are its digits to base 256. -/
theorem serializedWordsAreLittleEndian : Obligations.SerializedWordsAreLittleEndian :=
  ⟨fun w => ⟨wordToBytes_length w, fun _ => getElem?_wordToBytes w, bytesToWord_wordToBytes w⟩,
    fun _ => wordToBytes_bytesToWord⟩

/-! ## Room, accepting and performing (R34, R103) -/

section Interface
variable {s : State}

theorem not_hasPipelineRoom_of_full (h : Config.pipelineCapacity ≤ s.inFlight.length) : ¬ s.hasPipelineRoom = true :=
  fun hroom => Nat.not_lt.mpr h (s.hasPipelineRoom_iff.mp hroom)

theorem acceptWord_of_room (h : s.inFlight.length < Config.pipelineCapacity) (w : CmdWord) :
    s.acceptWord w = { s with inFlight := s.inFlight ++ [w] } :=
  if_pos (s.hasPipelineRoom_iff.mpr h)

theorem acceptWord_of_full (h : Config.pipelineCapacity ≤ s.inFlight.length) (w : CmdWord) : s.acceptWord w = s :=
  if_neg (not_hasPipelineRoom_of_full h)

theorem acceptByte_of_lt (h : s.partialWord.length < 11) (b : Byte) :
    s.acceptByte b = { s with partialWord := s.partialWord ++ [b] } :=
  if_pos h

/-- The twelfth byte makes the word whole (R30). -/
theorem acceptByte_of_room (hlen : 11 ≤ s.partialWord.length) (h : s.inFlight.length < Config.pipelineCapacity)
    (b : Byte) : s.acceptByte b =
      { s with partialWord := [], inFlight := s.inFlight ++ [bytesToWord (s.partialWord ++ [b])] } := by
  rw [State.acceptByte, if_neg (Nat.not_lt.mpr hlen), if_pos (s.hasPipelineRoom_iff.mpr h), acceptWord_of_room]
  exact h

theorem acceptByte_of_full (hlen : 11 ≤ s.partialWord.length) (h : Config.pipelineCapacity ≤ s.inFlight.length)
    (b : Byte) : s.acceptByte b = s := by
  rw [State.acceptByte, if_neg (Nat.not_lt.mpr hlen), if_neg (not_hasPipelineRoom_of_full h)]

theorem deliver_of_cons {r : RspWord} {rs : List RspWord} (h : s.undelivered = r :: rs) :
    s.deliver = { s with undelivered := rs, delivered := s.delivered ++ [r] } := by
  simp only [State.deliver, h]

/-- With room for its response, the oldest command is performed (R34). -/
theorem performNext_of_room {w : CmdWord} {q : List CmdWord} (hw : s.inFlight = w :: q)
    (hroom : s.undelivered.length < Config.responseCapacity) :
    performNext s = performWord w { s with inFlight := q } := by
  simp only [performNext, hw, s.hasResponseRoom_iff.mpr hroom, if_true]

theorem step_runs_event {e : Event} {rest : List Event} (h : s.events = e :: rest) :
    step s = runEvent e { s with events := rest } := by
  rw [step_of_event h, popEvent, h, List.tail_cons]

end Interface

/-- Settles O10: accepting, refusing and taking, event by event. -/
theorem commandsAndResponsesKeepTheirOrder : Obligations.CommandsAndResponsesKeepTheirOrder := by
  intro s rest
  refine ⟨fun w hev hroom => ?accepted, fun w hev hfull => ?full, fun w hev => ?refused, fun r rs hev hr => ?taken⟩ <;>
    rw [step_runs_event hev, runEvent]
  case accepted =>
    rw [acceptWord_of_room]
    exact hroom
  case full =>
    rw [acceptWord_of_full]
    exact hfull
  case taken =>
    rw [deliver_of_cons]
    exact hr

/-- A step that performs, by the script or with an empty one, performs the oldest command (R34, R104). -/
theorem step_performs {s : State} {w : CmdWord} {q : List CmdWord} {rest : List Event} (hw : s.inFlight = w :: q)
    (hev : s.events = .perform :: rest ∨ (s.events = [] ∧ rest = []))
    (hroom : s.undelivered.length < Config.responseCapacity) :
    step s = performWord w { s with inFlight := q, events := rest } := by
  have hstep : step s = performNext (popEvent s) ∧ s.events.tail = rest := by
    obtain hev | ⟨hev, rfl⟩ := hev
    · exact ⟨step_of_event hev, congrArg List.tail hev⟩
    · exact ⟨step_of_no_event hev, congrArg List.tail hev⟩
  obtain ⟨hstep, rfl⟩ := hstep
  exact hstep.trans (performNext_of_room (s := popEvent s) hw hroom)

/-- Settles O9: the step performs the oldest word, as its command or as an illegal one. -/
theorem stepPerformsTheOldestCommand : Obligations.StepPerformsTheOldestCommand := by
  intro s w q rest hw hev hroom
  have hstep := step_performs hw hev hroom
  refine ⟨fun i hi => hstep.trans (performWord_of_ok hi _), fun e he => ?_⟩
  rw [hstep, performWord_of_error he, State.raiseError_eq, firstErrAfter_error _ _ (by decide)]
  rfl

/-! ## Words that arrive byte by byte (R29, R30) -/

/-- Bytes that do not complete a word are taken one a step, and wait. -/
theorem run_waiting_bytes (k : Nat) (rest : List Event) (bs : List Byte) (s : State)
    (h : s.partialWord.length + bs.length < 12) :
    Sys2Proof.core.run (k + bs.length) { s with events := bs.map Event.commandByte ++ rest } =
      Sys2Proof.core.run k { s with partialWord := s.partialWord ++ bs, events := rest } := by
  induction bs generalizing s with
  | nil => simp
  | cons b bs ih =>
    rw [List.length_cons] at h
    have hstep : step { s with events := (b :: bs).map Event.commandByte ++ rest } =
        .next { s with partialWord := s.partialWord ++ [b], events := bs.map Event.commandByte ++ rest } := by
      rw [step_runs_event rfl, runEvent, acceptByte_of_lt (by dsimp only; omega)]
      rfl
    have hrest := ih { s with partialWord := s.partialWord ++ [b] } (by
      simp only [List.length_append, List.length_singleton]; omega)
    rw [List.append_assoc] at hrest
    exact (run_succ_of_step _ _ _ hstep).trans hrest

/-- Settles O11: the first eleven bytes wait, and the twelfth makes the word whole if there is room for it. -/
theorem partialTransferGivesNoCommand : Obligations.PartialTransferGivesNoCommand := by
  refine ⟨fun s w hpart hroom => ?whole, fun s bs hlen => ?fewer, fun s b rest hev hlen hfull => ?full⟩
  case whole =>
    obtain hnil | ⟨bs, b, hbs⟩ := List.eq_nil_or_concat' (wordToBytes w)
    · simpa [hnil] using wordToBytes_length w
    · have hlen : bs.length = 11 := by simpa [hbs] using wordToBytes_length w
      have hwait := run_waiting_bytes 1 [.commandByte b] bs s (by simp [hpart, hlen])
      have hlast : step { s with partialWord := s.partialWord ++ bs, events := [.commandByte b] } =
          .next { s with inFlight := s.inFlight ++ [w], events := [] } := by
        rw [step_runs_event rfl, runEvent, acceptByte_of_room]
        · simp [hpart, ← hbs]
        · simp [hlen]
        · exact hroom
      rw [hbs, List.map_append, List.map_singleton]
      rw [hlen] at hwait
      exact hwait.trans (run_succ_of_step 0 _ _ hlast)
  case fewer => simpa [Host.Core.run] using run_waiting_bytes 0 [] bs s hlen
  case full =>
    rw [step_runs_event hev, runEvent, acceptByte_of_full]
    · exact hlen.ge
    · exact hfull

/-! ## Reads (R31, R71) -/

/-- A read: RDINFO, or a lookup that succeeds in this state. -/
def IsRead (i : Instr) (s : State) : Prop := i = .rdinfo ∨ (s.vld = true ∧ ∃ h, i = .quot h ∨ i = .rem h)

/-- A read adds a response and does nothing else (R67, R68, R74). -/
theorem exec_of_isRead {i : Instr} {s : State} (h : IsRead i s) :
    ∃ r, ∀ rs, exec i { s with undelivered := rs } = .next { s with undelivered := rs ++ [r] } := by
  obtain rfl | ⟨hv, x, rfl | rfl⟩ := h
  · exact ⟨rspWord 0 (s.mul.extractLsb' 0 32) s.div s.shf (s.mul.extractLsb' 32 1) s.vld s.firstErr, fun rs => rfl⟩
  · exact ⟨rspWord 0 (quotientOf x s.mul s.shf) 0 0 0 s.vld s.firstErr, fun rs => by
      simp [exec, execQuot, hv, State.completeWithX_eq]⟩
  · exact ⟨rspWord 0 (remainderOf x s.div s.mul s.shf) 0 0 0 s.vld s.firstErr, fun rs => by
      simp [exec, execRem, hv, State.completeWithX_eq]⟩

/-- Settles O26: a read leaves what it reads, so a second one gives the same response. -/
theorem readsAreIdempotent : Obligations.ReadsAreIdempotent := by
  intro i s h
  obtain ⟨r, hr⟩ := exec_of_isRead h
  exact ⟨_, _, r, hr s.undelivered, hr _, ⟨rfl, rfl, rfl, rfl, rfl⟩, ⟨rfl, rfl, rfl, rfl, rfl⟩, rfl,
    List.append_assoc ..⟩

/-! ## One response for each command (R35, R41) -/

/-- From `s` to `t` a command has been answered with `r`, which shows the flags of `t`, and the rest of the interface is
as it was. -/
def Answered (s t : State) (r : RspWord) : Prop :=
  t.undelivered = s.undelivered ++ [r] ∧ rspVld r = BitVec.ofBool t.vld ∧ rspFirstErr r = t.firstErr ∧
    rspZero r = 0 ∧ t.inFlight = s.inFlight ∧ t.events = s.events ∧ t.partialWord = s.partialWord ∧
    t.delivered = s.delivered

theorem answered_complete (s : State) (st : Status) (x y : Word32) (rshf : Shift) (rmul32 : BitVec 1) :
    Answered s (s.complete st x y rshf rmul32)
      (rspWord (statusCode st) x y rshf rmul32 s.vld (firstErrAfter st s.firstErr)) :=
  ⟨rfl, rspVld_rspWord .., rspFirstErr_rspWord .., rspZero_rspWord .., rfl, rfl, rfl, rfl⟩

/-- Every way a command can end answers it: writing the triple or VLD first does not touch the interface. -/
theorem performWord_answered {w : CmdWord} {s t : State} (h : performWord w s = .next t) : ∃ r, Answered s t r := by
  obtain ⟨-, -, rfl⟩ | ⟨i, -, h⟩ := performWord_cases w s t h
  · exact ⟨_, answered_complete { s with vld := _ } ..⟩
  · obtain ⟨e, -, rfl⟩ | ⟨x, rfl⟩ | rfl | ⟨d, m, sh, -, -, rfl | rfl⟩ := exec_cases i s t h
    · exact ⟨_, answered_complete { s with vld := _ } ..⟩
    · exact ⟨_, answered_complete s ..⟩
    · exact ⟨_, answered_complete s ..⟩
    · exact ⟨_, answered_complete (s.loadTriple d m sh) ..⟩
    · exact ⟨_, answered_complete (s.loadTriple d m sh) ..⟩

theorem exists_performWord_answered (w : CmdWord) (s : State) :
    ∃ t r, performWord w s = .next t ∧ Answered s t r := by
  obtain ⟨t, -, -, ht, -⟩ := responsesDependOnRegistersAlone w s s ⟨rfl, rfl, rfl, rfl, rfl⟩
  obtain ⟨r, hr⟩ := performWord_answered ht
  exact ⟨t, r, ht, hr⟩

/-- Settles O18: every word completes, and is answered. -/
theorem everyCommandGivesOneResponse : Obligations.EveryCommandGivesOneResponse :=
  exists_performWord_answered

theorem answered_allResponses {s t : State} {r : RspWord} (h : Answered s t r) :
    t.allResponses = s.allResponses ++ [r] := by
  obtain ⟨hund, -, -, -, -, -, -, hdel⟩ := h
  simp only [State.allResponses, hund, hdel, List.append_assoc]

/-! ## The sequential fold (R34) -/

/-- The host cannot tell the two states apart by their registers and by the responses given so far. -/
def SameView (s t : State) : Prop := SameRegisters s t ∧ s.allResponses = t.allResponses

theorem sameView_refl (s : State) : SameView s s := ⟨⟨rfl, rfl, rfl, rfl, rfl⟩, rfl⟩

theorem sameView_trans {s t u : State} (hst : SameView s t) (htu : SameView t u) : SameView s u := by
  obtain ⟨⟨hdiv, hmul, hshf, hvld, hfe⟩, hall⟩ := hst
  obtain ⟨⟨hdiv', hmul', hshf', hvld', hfe'⟩, hall'⟩ := htu
  exact ⟨⟨hdiv.trans hdiv', hmul.trans hmul', hshf.trans hshf', hvld.trans hvld', hfe.trans hfe'⟩, hall.trans hall'⟩

theorem sameView_performWord {s u t : State} (hsu : SameView s u) {w : CmdWord} (h : performWord w s = .next t) :
    ∃ v, performWord w u = .next v ∧ SameView t v := by
  obtain ⟨hregs, hall⟩ := hsu
  obtain ⟨t', v, r, ht, hv, hregs', hundt, hundv⟩ := responsesDependOnRegistersAlone w s u hregs
  obtain rfl := Host.Outcome.next.inj (h.symm.trans ht)
  obtain ⟨rt, -, -, -, -, -, -, -, hdelt⟩ := performWord_answered ht
  obtain ⟨rv, -, -, -, -, -, -, -, hdelv⟩ := performWord_answered hv
  refine ⟨v, hv, hregs', ?_⟩
  simp only [State.allResponses] at hall ⊢
  rw [hundt, hundv, hdelt, hdelv, ← List.append_assoc, ← List.append_assoc, hall]

theorem performAll_cons {w : CmdWord} {s t : State} (h : performWord w s = .next t) (ws : List CmdWord) :
    performAll (w :: ws) s = performAll ws t := by
  simp only [performAll, h]

/-- The fold of a list begins with a performed word: no word stops the unit. -/
theorem performAll_cons_next {w : CmdWord} {ws : List CmdWord} {s u : State} (h : performAll (w :: ws) s = .next u) :
    ∃ t, performWord w s = .next t ∧ performAll ws t = .next u := by
  obtain ⟨t, -, ht, -⟩ := exists_performWord_answered w s
  exact ⟨t, ht, (performAll_cons ht ws).symm.trans h⟩

theorem performAll_append {ws : List CmdWord} {s t : State} (h : performAll ws s = .next t) (vs : List CmdWord) :
    performAll (ws ++ vs) s = performAll vs t := by
  induction ws generalizing s with
  | nil =>
    obtain rfl := Host.Outcome.next.inj h
    rfl
  | cons w ws ih =>
    obtain ⟨u, hu, hrest⟩ := performAll_cons_next h
    rw [List.cons_append, performAll_cons hu, ih hrest]

theorem sameView_performAll {ws : List CmdWord} {s u t : State} (hsu : SameView s u)
    (h : performAll ws s = .next t) : ∃ v, performAll ws u = .next v ∧ SameView t v := by
  induction ws generalizing s u with
  | nil =>
    obtain rfl := Host.Outcome.next.inj h
    exact ⟨u, rfl, hsu⟩
  | cons w ws ih =>
    obtain ⟨s', hs', hrest⟩ := performAll_cons_next h
    obtain ⟨u', hu', hview⟩ := sameView_performWord hsu hs'
    obtain ⟨v, hv, htv⟩ := ih hview hrest
    exact ⟨v, (performAll_cons hu' ws).trans hv, htv⟩

/-- The fold gives one response for each word (R35). -/
theorem performAll_allResponses {ws : List CmdWord} {s t : State} (h : performAll ws s = .next t) :
    ∃ rs, t.allResponses = s.allResponses ++ rs ∧ rs.length = ws.length := by
  induction ws generalizing s with
  | nil =>
    obtain rfl := Host.Outcome.next.inj h
    exact ⟨[], (List.append_nil _).symm, rfl⟩
  | cons w ws ih =>
    obtain ⟨u, hu, hrest⟩ := performAll_cons_next h
    obtain ⟨r, hr⟩ := performWord_answered hu
    obtain ⟨rs, hrs, hlen⟩ := ih hrest
    refine ⟨r :: rs, ?_, congrArg (· + 1) hlen⟩
    rw [hrs, answered_allResponses hr, List.append_assoc, List.singleton_append]

/-! ## Every schedule does the fold (R34, R102) -/

/-- The relation between the ends of a run in which the unit has accepted `acc`: of the commands in flight and of `acc`,
the ones no longer in flight have been performed one at a time in order, as far as the host can tell. -/
def FoldsTo (s : State) (acc : List CmdWord) (t : State) : Prop :=
  ∃ done u, s.inFlight ++ acc = done ++ t.inFlight ∧ performAll done s = .next u ∧ SameView t u

/-- Where nothing is performed, the accepted commands are behind those in flight. -/
theorem foldsTo_of_sameView {s t : State} {acc : List CmdWord} (hview : SameView t s)
    (hin : t.inFlight = s.inFlight ++ acc) : FoldsTo s acc t :=
  ⟨[], s, hin.symm, rfl, hview⟩

theorem foldsTo_of_sameQueue {s t : State} (hview : SameView t s) (hin : t.inFlight = s.inFlight) : FoldsTo s [] t :=
  foldsTo_of_sameView hview (hin.trans (List.append_nil _).symm)

theorem foldsTo_trans {s t v : State} {acc acc' : List CmdWord} (hst : FoldsTo s acc t) (htv : FoldsTo t acc' v) :
    FoldsTo s (acc ++ acc') v := by
  obtain ⟨done, u, hin, hfold, htu⟩ := hst
  obtain ⟨done', x, hin', hfold', hvx⟩ := htv
  obtain ⟨y, hy, hxy⟩ := sameView_performAll htu hfold'
  refine ⟨done ++ done', y, ?_, (performAll_append hfold done').trans hy, sameView_trans hvx hxy⟩
  rw [← List.append_assoc, hin, List.append_assoc, hin', List.append_assoc]

/-- Taking an event from the script leaves the queue and what the host sees. -/
theorem foldsTo_popEvent (s : State) : FoldsTo s [] (popEvent s) :=
  foldsTo_of_sameQueue (sameView_refl s) rfl

/-- Performing the oldest word is the fold of that word: the queue behind it does not matter. -/
theorem foldsTo_of_performWord {s t : State} {w : CmdWord} {q : List CmdWord} (hw : s.inFlight = w :: q)
    (h : performWord w { s with inFlight := q } = .next t) : FoldsTo s [] t := by
  obtain ⟨v, hv, hview⟩ := sameView_performWord (s := { s with inFlight := q }) (u := s) (sameView_refl s) h
  obtain ⟨r, -, -, -, -, hin, -⟩ := performWord_answered h
  refine ⟨[w], v, ?_, performAll_cons hv [], hview⟩
  rw [hw, hin, List.append_nil, List.singleton_append]

theorem exists_performNext_foldsTo (s : State) : ∃ t, performNext s = .next t ∧ FoldsTo s [] t := by
  obtain ⟨w, q, hw, -, hp⟩ | ⟨-, hp⟩ := performNext_cases s
  · obtain ⟨t, -, ht, -⟩ := exists_performWord_answered w { s with inFlight := q }
    exact ⟨t, hp.trans ht, foldsTo_of_performWord hw ht⟩
  · exact ⟨s, hp, foldsTo_of_sameQueue (sameView_refl s) rfl⟩

theorem sameView_deliver (s : State) : SameView s.deliver s := by
  refine ⟨sameRegisters_deliver s, ?_⟩
  obtain ⟨-, h⟩ | ⟨r, rs, hrs, h⟩ := s.deliver_cases <;> rw [h]
  simp only [State.allResponses, hrs, List.append_assoc, List.singleton_append]

theorem deliver_inFlight (s : State) : s.deliver.inFlight = s.inFlight := by
  obtain ⟨-, h⟩ | ⟨r, rs, -, h⟩ := s.deliver_cases <;> rw [h]

theorem foldsTo_deliver (s : State) : FoldsTo s [] s.deliver :=
  foldsTo_of_sameQueue (sameView_deliver s) (deliver_inFlight s)

theorem foldsTo_acceptWord (s : State) (w : CmdWord) :
    FoldsTo s (if s.hasPipelineRoom then [w] else []) (s.acceptWord w) := by
  obtain ⟨hroom, h⟩ | ⟨hfull, h⟩ := s.acceptWord_cases w <;> rw [h]
  · exact foldsTo_of_sameView (sameView_refl s) (by simp [hroom])
  · exact foldsTo_of_sameView (sameView_refl s) (by simp [hfull])

theorem foldsTo_acceptByte (s : State) (b : Byte) :
    FoldsTo s (if s.hasPipelineRoom ∧ 11 ≤ s.partialWord.length then [bytesToWord (s.partialWord ++ [b])] else [])
      (s.acceptByte b) := by
  obtain ⟨hlt, h⟩ | ⟨hlen, hroom, h⟩ | ⟨-, hfull, h⟩ := s.acceptByte_cases b <;> rw [h]
  · exact foldsTo_of_sameView (sameView_refl s) (by simp [Nat.not_le.mpr hlt])
  · exact foldsTo_of_sameView (sameView_refl s) (by simp [hroom, hlen])
  · exact foldsTo_of_sameView (sameView_refl s) (by simp [hfull])

/-- A step short of a reset does at most one word of the fold, whichever agent moves. -/
theorem exists_step_foldsTo {s : State} (hreset : s.events.head? ≠ some .reset) :
    ∃ t, step s = .next t ∧ FoldsTo s (acceptedNext s) t := by
  suffices h : ∃ t, step s = .next t ∧ FoldsTo (popEvent s) (acceptedNext s) t by
    obtain ⟨t, hstep, hfold⟩ := h
    exact ⟨t, hstep, foldsTo_trans (foldsTo_popEvent s) hfold⟩
  unfold acceptedNext
  cases hev : s.events with
  | nil =>
    rw [step_of_no_event hev]
    exact exists_performNext_foldsTo _
  | cons e rest =>
    rw [step_of_event hev]
    cases e with
    | command w => exact ⟨_, rfl, foldsTo_acceptWord (popEvent s) w⟩
    | commandByte b => exact ⟨_, rfl, foldsTo_acceptByte (popEvent s) b⟩
    | stalled w => exact ⟨_, rfl, foldsTo_of_sameQueue (sameView_refl _) rfl⟩
    | perform => exact exists_performNext_foldsTo _
    | takeResponse => exact ⟨_, rfl, foldsTo_deliver (popEvent s)⟩
    | reset => simp [hev] at hreset

theorem foldsTo_of_step {s t : State} (hreset : s.events.head? ≠ some .reset) (h : step s = .next t) :
    FoldsTo s (acceptedNext s) t := by
  obtain ⟨t', ht', hfold⟩ := exists_step_foldsTo hreset
  obtain rfl := Host.Outcome.next.inj (h.symm.trans ht')
  exact hfold

/-- A step takes the next event from the script and leaves the others. -/
theorem step_events {s t : State} (h : step s = .next t) : t.events = s.events.tail := by
  obtain ⟨w, q, -, -, hp⟩ | rfl | ⟨w, rfl⟩ | ⟨b, rfl⟩ | rfl | ⟨-, rfl⟩ := step_cases h
  · obtain ⟨r, -, -, -, -, -, hev, -⟩ := performWord_answered hp
    exact hev
  · rfl
  · obtain ⟨-, h⟩ | ⟨-, h⟩ := (popEvent s).acceptWord_cases w <;> rw [h] <;> rfl
  · obtain ⟨-, h⟩ | ⟨-, -, h⟩ | ⟨-, -, h⟩ := (popEvent s).acceptByte_cases b <;> rw [h] <;> rfl
  · obtain ⟨-, h⟩ | ⟨r, rs, -, h⟩ := (popEvent s).deliver_cases <;> rw [h] <;> rfl
  · rfl

theorem acceptedIn_succ {s t : State} (h : step s = .next t) (k : Nat) :
    acceptedIn (k + 1) s = acceptedNext s ++ acceptedIn k t := by
  simp only [acceptedIn, h]

theorem exists_run_foldsTo (k : Nat) {s : State} (hreset : Event.reset ∉ s.events) :
    ∃ t, Sys2Proof.core.run k s = .next t ∧ FoldsTo s (acceptedIn k s) t := by
  induction k generalizing s with
  | zero => exact ⟨s, rfl, foldsTo_of_sameQueue (sameView_refl s) rfl⟩
  | succ k ih =>
    obtain ⟨t, hstep, hfold⟩ := exists_step_foldsTo fun h => hreset (List.mem_of_mem_head? h)
    obtain ⟨v, hrun, hrest⟩ := ih (s := t) fun h => hreset (List.mem_of_mem_tail (step_events hstep ▸ h))
    rw [acceptedIn_succ hstep]
    exact ⟨v, (run_succ_of_step k s t hstep).trans hrun, foldsTo_trans hfold hrest⟩

/-- Settles O15: the fold of each step, chained over the run. -/
theorem everyScheduleIsTheSequentialFold : Obligations.EveryScheduleIsTheSequentialFold := by
  intro k s hreset
  obtain ⟨t, hrun, done, u, hin, hfold, hregs, hall⟩ := exists_run_foldsTo k hreset
  exact ⟨t, done, u, hrun, hin, hfold, hregs, hall⟩

/-! ## A host that keeps taking responses (R104) -/

/-- Taking a response makes room for one more (R103). -/
theorem deliver_undelivered_lt {s : State} (h : s.undelivered.length ≤ Config.responseCapacity) :
    s.deliver.undelivered.length < Config.responseCapacity := by
  obtain ⟨hnil, h'⟩ | ⟨r, rs, hrs, h'⟩ := s.deliver_cases <;> rw [h']
  · rw [hnil]
    exact Nat.succ_pos _
  · rwa [hrs] at h

/-- One turn: the host takes a response, and the oldest command completes. -/
theorem exists_run_turn {s : State} {w : CmdWord} {q : List CmdWord} {es : List Event} (hw : s.inFlight = w :: q)
    (hev : s.events = .takeResponse :: .perform :: es) (hfit : s.undelivered.length ≤ Config.responseCapacity) :
    ∃ t, (∀ k, Sys2Proof.core.run (k + 2) s = Sys2Proof.core.run k t) ∧ FoldsTo s [] t ∧ t.inFlight = q ∧
      t.events = es ∧ t.undelivered.length ≤ Config.responseCapacity := by
  have htake : step s = .next (popEvent s).deliver := step_of_event hev
  have hin : (popEvent s).deliver.inFlight = w :: q := (deliver_inFlight _).trans hw
  have hev' : (popEvent s).deliver.events = .perform :: es := (step_events htake).trans (congrArg List.tail hev)
  have hroom := deliver_undelivered_lt (s := popEvent s) hfit
  obtain ⟨t, r, ht, hund, -, -, -, htin, htev, -⟩ :=
    exists_performWord_answered w { (popEvent s).deliver with inFlight := q, events := es }
  have hperform : step (popEvent s).deliver = .next t := (step_performs hin (.inl hev') hroom).trans ht
  refine ⟨t, fun k => ?_, ?_, htin, htev, ?_⟩
  · rw [run_succ_of_step (k + 1) _ _ htake, run_succ_of_step k _ _ hperform]
  · have htaken := foldsTo_of_step (by simp [hev]) htake
    have hperformed := foldsTo_of_step (by simp [hev']) hperform
    simpa only [acceptedNext, hev, hev', List.append_nil] using foldsTo_trans htaken hperformed
  · rw [hund, List.length_append]
    exact hroom

/-- As many turns as commands in flight empty the pipeline. -/
theorem exists_run_keepTaking {ws : List CmdWord} {s : State} (hw : s.inFlight = ws)
    (hev : s.events = keepTaking ws.length) (hfit : s.undelivered.length ≤ Config.responseCapacity) :
    ∃ t, Sys2Proof.core.run (2 * ws.length) s = .next t ∧ FoldsTo s [] t ∧ t.inFlight = [] ∧ t.events = [] := by
  induction ws generalizing s with
  | nil => exact ⟨s, rfl, foldsTo_of_sameQueue (sameView_refl s) rfl, hw, hev⟩
  | cons w q ih =>
    obtain ⟨t, hturn, hfold, htin, htev, htfit⟩ := exists_run_turn hw hev hfit
    obtain ⟨v, hrun, hrest, hvin, hvev⟩ := ih htin htev htfit
    exact ⟨v, (hturn _).trans hrun, foldsTo_trans hfold hrest, hvin, hvev⟩

/-- Settles O16: with the pipeline empty, the fold is that of all the commands that were in flight. -/
theorem acceptedCommandsComplete : Obligations.AcceptedCommandsComplete := by
  intro s hfit hev
  obtain ⟨t, hrun, ⟨done, u, hin, hfold, hregs, hall⟩, htin, htev⟩ := exists_run_keepTaking rfl hev hfit
  obtain rfl : s.inFlight = done := by simpa [htin] using hin
  obtain ⟨rs, hrs, hlen⟩ := performAll_allResponses hfold
  exact ⟨t, u, rs, hrun, htin, htev, hfold, hregs, hall, hall.trans hrs, hlen⟩

end Sys2Proof.Proofs

/-! SUPPORT. The encoding of 30_encoding.md: what the decoder reads from a word (R46, R47), which words match the opcode
table (R53) and which are illegal (R48), and the words of the assembler (R50, R51). -/
namespace Sys2Proof.Proofs

open Sys2Proof Sys2Proof.Machine

/-! ## Decode undoes encode (R40, R47, R50) -/

@[simp] theorem decodeBytes_wordToBytes (w : CmdWord) : decodeBytes (wordToBytes w) = decode w := by
  simp only [decodeBytes, wordToBytes_length, if_true, bytesToWord_wordToBytes]

/-- Read as a row of the opcode table, a 96-bit number is the word with that number. -/
@[simp] theorem decodeTableWord_toNat (w : CmdWord) : decodeTableWord 96 w.toNat = (decode w).toOption := by
  rw [decodeTableWord, Nat.mod_eq_of_lt w.isLt, BitVec.ofNat_toNat, BitVec.setWidth_eq, decodeBytes_wordToBytes]

/-- Settles O1: the bytes and the number of a word lose nothing of it, so all three readings are `decode_encode`. -/
theorem encodeThenDecodeIsIdentity : Obligations.EncodeThenDecodeIsIdentity := fun i =>
  ⟨decode_encode i, by rw [decodeBytes_wordToBytes, decode_encode],
    by rw [decodeTableWord_toNat, decode_encode, Except.toOption]⟩

/-- Settles O7: the five words are the ones `encode` gives, and a command decodes from its word. -/
theorem exampleWordsDecode : Obligations.ExampleWordsDecode := by
  have decodes {i : Instr} {w : CmdWord} (h : encode i = w) : encode i = w ∧ decode w = .ok i :=
    ⟨h, h ▸ decode_encode i⟩
  simp only [Obligations.ExampleWordsDecode, List.forall_mem_cons]
  exact ⟨decodes rfl, decodes rfl, decodes rfl, decodes rfl, decodes rfl, by simp⟩

/-! ## What the decoder reads (R46, R47) -/

/-- The word has the opcode of the command, AUX bits that this opcode allows, and the command's operands in its fields
(R42, R44, R46). With RSVD = 0 it decodes to the command (`decode_eq_ok_iff`). -/
def Carries (w : CmdWord) : Instr → Prop
  | .derive d => cmdOp w = 0x01 ∧ cmdAux w = 0 ∧ cmdB w = d
  | .ldinfo d m s => cmdOp w = 0x02 ∧ cmdB w = d ∧ cmdMult w = m ∧ cmdAshf w = s
  | .rdinfo => cmdOp w = 0x03 ∧ cmdAux w = 0
  | .quot h => cmdOp w = 0x04 ∧ cmdAux w = 0 ∧ cmdA w = h
  | .rem h => cmdOp w = 0x05 ∧ cmdAux w = 0 ∧ cmdA w = h

theorem carries_of_decode {w : CmdWord} {i : Instr} (h : decode w = .ok i) : cmdRsvd w = 0 ∧ Carries w i := by
  unfold decode at h
  split_ifs at h with hrsvd hderive hldinfo hrdinfo hquot hrem <;> cases h
  · obtain ⟨hop, haux⟩ := hderive
    exact ⟨not_ne_iff.mp hrsvd, hop, haux, rfl⟩
  · exact ⟨not_ne_iff.mp hrsvd, hldinfo, rfl, rfl, rfl⟩
  · exact ⟨not_ne_iff.mp hrsvd, hrdinfo⟩
  · obtain ⟨hop, haux⟩ := hquot
    exact ⟨not_ne_iff.mp hrsvd, hop, haux, rfl⟩
  · obtain ⟨hop, haux⟩ := hrem
    exact ⟨not_ne_iff.mp hrsvd, hop, haux, rfl⟩

/-- `Decode` of R47 as an equivalence, with no order of tests left in it. -/
theorem decode_eq_ok_iff {w : CmdWord} {i : Instr} : decode w = .ok i ↔ cmdRsvd w = 0 ∧ Carries w i := by
  refine ⟨carries_of_decode, fun ⟨hrsvd, hi⟩ => ?_⟩
  cases i with
  | derive d => obtain ⟨hop, haux, rfl⟩ := hi; simp [decode, hrsvd, hop, haux]
  | ldinfo d m s => obtain ⟨hop, rfl, rfl, rfl⟩ := hi; simp [decode, hrsvd, hop]
  | rdinfo => obtain ⟨hop, haux⟩ := hi; simp [decode, hrsvd, hop, haux]
  | quot h => obtain ⟨hop, haux, rfl⟩ := hi; simp [decode, hrsvd, hop, haux]
  | rem h => obtain ⟨hop, haux, rfl⟩ := hi; simp [decode, hrsvd, hop, haux]

/-! ## The fields as numbers (R40, R46) -/

theorem toNat_cmdOp (w : CmdWord) : (cmdOp w).toNat = w.toNat % 2 ^ 8 := BitVec.extractLsb'_toNat ..

theorem toNat_cmdAshf (w : CmdWord) : (cmdAshf w).toNat = w.toNat / 2 ^ 8 % 2 ^ 6 := by
  rw [cmdAshf, BitVec.extractLsb'_toNat, Nat.shiftRight_eq_div_pow]

theorem toNat_cmdAmul32 (w : CmdWord) : (cmdAmul32 w).toNat = w.toNat / 2 ^ 14 % 2 := by
  rw [cmdAmul32, BitVec.extractLsb'_toNat, Nat.shiftRight_eq_div_pow, Nat.pow_one]

theorem toNat_cmdRsvd (w : CmdWord) : (cmdRsvd w).toNat = w.toNat / 2 ^ 15 % 2 ^ 17 := by
  rw [cmdRsvd, BitVec.extractLsb'_toNat, Nat.shiftRight_eq_div_pow]

theorem toNat_cmdA (w : CmdWord) : (cmdA w).toNat = w.toNat / 2 ^ 32 % 2 ^ 32 := by
  rw [cmdA, BitVec.extractLsb'_toNat, Nat.shiftRight_eq_div_pow]

/-- Operand B is the top of the word: nothing stands above it. -/
theorem toNat_cmdB (w : CmdWord) : (cmdB w).toNat = w.toNat / 2 ^ 64 := by
  rw [cmdB, BitVec.extractLsb'_toNat, Nat.shiftRight_eq_div_pow]
  exact Nat.mod_eq_of_lt (by omega)

theorem toNat_cmdMult (w : CmdWord) :
    (cmdMult w).toNat = w.toNat / 2 ^ 14 % 2 * 2 ^ 32 + w.toNat / 2 ^ 32 % 2 ^ 32 := by
  rw [cmdMult, BitVec.toNat_append, ← Nat.shiftLeft_add_eq_or_of_lt (cmdA w).isLt, Nat.shiftLeft_eq, toNat_cmdAmul32,
    toNat_cmdA]

/-- Settles O5: a command that decodes has the fields `Carries` names, and each is its bits of the word's number. -/
theorem decodedOperandsAreTheWordsFields : Obligations.DecodedOperandsAreTheWordsFields := by
  intro w i h
  obtain ⟨-, hi⟩ := carries_of_decode h
  cases i with
  | derive d => obtain ⟨-, -, rfl⟩ := hi; exact toNat_cmdB w
  | ldinfo d m s => obtain ⟨-, rfl, rfl, rfl⟩ := hi; exact ⟨toNat_cmdB w, toNat_cmdMult w, toNat_cmdAshf w⟩
  | rdinfo => trivial
  | quot x => obtain ⟨-, -, rfl⟩ := hi; exact toNat_cmdA w
  | rem x => obtain ⟨-, -, rfl⟩ := hi; exact toNat_cmdA w

/-! ## Illegal words (R48, R81) -/

/-- Which words decode, by opcode, AUX and RSVD alone (R47). -/
theorem exists_decode_ok_iff (w : CmdWord) :
    (∃ i, decode w = .ok i) ↔ cmdRsvd w = 0 ∧ (cmdOp w = 0x02 ∨
      (cmdOp w = 0x01 ∨ cmdOp w = 0x03 ∨ cmdOp w = 0x04 ∨ cmdOp w = 0x05) ∧ cmdAux w = 0) := by
  simp only [decode_eq_ok_iff]
  constructor
  · rintro ⟨i, hrsvd, hi⟩
    refine ⟨hrsvd, ?_⟩
    cases i with
    | derive d => obtain ⟨hop, haux, -⟩ := hi; exact .inr ⟨.inl hop, haux⟩
    | ldinfo d m s => obtain ⟨hop, -⟩ := hi; exact .inl hop
    | rdinfo => obtain ⟨hop, haux⟩ := hi; exact .inr ⟨.inr (.inl hop), haux⟩
    | quot h => obtain ⟨hop, haux, -⟩ := hi; exact .inr ⟨.inr (.inr (.inl hop)), haux⟩
    | rem h => obtain ⟨hop, haux, -⟩ := hi; exact .inr ⟨.inr (.inr (.inr hop)), haux⟩
  · rintro ⟨hrsvd, hop | ⟨hop | hop | hop | hop, haux⟩⟩
    · exact ⟨.ldinfo _ _ _, hrsvd, hop, rfl, rfl, rfl⟩
    · exact ⟨.derive _, hrsvd, hop, haux, rfl⟩
    · exact ⟨.rdinfo, hrsvd, hop, haux⟩
    · exact ⟨.quot _, hrsvd, hop, haux, rfl⟩
    · exact ⟨.rem _, hrsvd, hop, haux, rfl⟩

theorem exists_decode_error_iff (w : CmdWord) : (∃ e, decode w = .error e) ↔ ¬ ∃ i, decode w = .ok i := by
  rcases decode w with e | i <;> simp

/-- R42 assigns the opcodes 0x01 to 0x05, here LDINFO's first. -/
theorem not_unassigned_iff (op : BitVec 8) :
    ¬ (op = 0x00 ∨ 0x06 ≤ op) ↔ op = 0x02 ∨ op = 0x01 ∨ op = 0x03 ∨ op = 0x04 ∨ op = 0x05 := by
  bv_omega

/-- The opcodes that allow no AUX bit are not LDINFO's (R44). -/
theorem ne_ldinfo_of_auxless {op : BitVec 8} (h : op = 0x01 ∨ op = 0x03 ∨ op = 0x04 ∨ op = 0x05) : op ≠ 0x02 := by
  obtain rfl | rfl | rfl | rfl := h <;> decide

/-- Settles O4: R48's cases are the words that do not decode, and `raise` gives R81's effect. -/
theorem illegalEncodingsCompleteWithIllegalCommand : Obligations.IllegalEncodingsCompleteWithIllegalCommand := by
  refine fun w => ⟨?_, fun e he s => ?_⟩
  · rw [exists_decode_error_iff, exists_decode_ok_iff]
    change _ ↔ cmdOp w = 0x00 ∨ 0x06 ≤ cmdOp w ∨ cmdRsvd w ≠ 0 ∨ _ ∧ cmdAux w ≠ 0
    have hassigned := not_unassigned_iff (cmdOp w)
    have hauxless := @ne_ldinfo_of_auxless (cmdOp w)
    grind
  · rw [performWord_of_error he, State.raiseError_eq, vldAfterError_illegalCommand,
      firstErrAfter_error _ _ (by decide), statusCode_illegalCommand]

/-! ## The opcode table (R53) -/

theorem cmdWord_and (b a b' a' : Word32) (r r' : BitVec 17) (x x' : BitVec 1) (s s' : Shift) (o o' : BitVec 8) :
    cmdWord b a r x s o &&& cmdWord b' a' r' x' s' o' =
      cmdWord (b &&& b') (a &&& a') (r &&& r') (x &&& x') (s &&& s') (o &&& o') := by
  unfold cmdWord
  ext i hi
  simp only [BitVec.getElem_and, BitVec.getElem_append]
  grind

theorem cmdWord_inj {b a b' a' : Word32} {r r' : BitVec 17} {x x' : BitVec 1} {s s' : Shift} {o o' : BitVec 8} :
    cmdWord b a r x s o = cmdWord b' a' r' x' s' o' ↔ b = b' ∧ a = a' ∧ r = r' ∧ x = x' ∧ s = s' ∧ o = o' := by
  refine ⟨fun h => ⟨?_, ?_, ?_, ?_, ?_, ?_⟩, by rintro ⟨rfl, rfl, rfl, rfl, rfl, rfl⟩; rfl⟩
  · simpa using congrArg cmdB h
  · simpa using congrArg cmdA h
  · simpa using congrArg cmdRsvd h
  · simpa using congrArg cmdAmul32 h
  · simpa using congrArg cmdAshf h
  · simpa using congrArg cmdOp h

/-- The AUX bits are AMUL32 and ASHF together (R44). -/
theorem cmdAux_eq_zero_iff (w : CmdWord) : cmdAux w = 0 ↔ cmdAmul32 w = 0 ∧ cmdAshf w = 0 := by
  have haux : (cmdAux w).toNat = w.toNat / 2 ^ 8 % 2 ^ 7 := by
    rw [cmdAux, BitVec.extractLsb'_toNat, Nat.shiftRight_eq_div_pow]
  simp only [← BitVec.toNat_inj, haux, toNat_cmdAmul32, toNat_cmdAshf, BitVec.ofNat_eq_ofNat, BitVec.toNat_ofNat]
  omega

/-- A row that masks all header bits but AUX (LDINFO's) matches by RSVD and the opcode. -/
theorem matchesWord_ldinfoMask (mn : String) (op : BitVec 8) (w : CmdWord) :
    OpcodeRow.matchesWord ⟨mn, cmdWord 0 0 0 0 0 op, 0xFFFF80FF⟩ w = true ↔ cmdRsvd w = 0 ∧ cmdOp w = op := by
  have hmask : (0xFFFF80FF : CmdWord) = cmdWord 0 0 (.allOnes 17) 0 0 (.allOnes 8) := by decide
  rw [OpcodeRow.matchesWord, beq_iff_eq, hmask]
  conv_lhs => rw [← cmdWord_fields w, cmdWord_and, cmdWord_inj]
  simp only [BitVec.and_allOnes, BitVec.ofNat_eq_ofNat, BitVec.and_zero, true_and]

/-- A row that masks all header bits (every other row) matches by RSVD, the opcode and AUX. -/
theorem matchesWord_headerMask (mn : String) (op : BitVec 8) (w : CmdWord) :
    OpcodeRow.matchesWord ⟨mn, cmdWord 0 0 0 0 0 op, 0xFFFFFFFF⟩ w = true ↔
      cmdRsvd w = 0 ∧ cmdOp w = op ∧ cmdAux w = 0 := by
  have hmask : (0xFFFFFFFF : CmdWord) = cmdWord 0 0 (.allOnes 17) (.allOnes 1) (.allOnes 6) (.allOnes 8) := by decide
  rw [OpcodeRow.matchesWord, beq_iff_eq, hmask, cmdAux_eq_zero_iff]
  conv_lhs => rw [← cmdWord_fields w, cmdWord_and, cmdWord_inj]
  simp only [BitVec.and_allOnes, BitVec.ofNat_eq_ofNat, BitVec.and_zero, true_and]
  tauto

/-- A word that decodes matches the row of its command. -/
theorem exists_matching_row {w : CmdWord} {i : Instr} (h : decode w = .ok i) :
    ∃ r ∈ opcodeTable, r.mnemonic = i.mnemonic ∧ r.matchesWord w = true := by
  obtain ⟨hrsvd, hi⟩ := carries_of_decode h
  cases i with
  | derive d =>
    obtain ⟨hop, haux, -⟩ := hi
    exact ⟨_, .head _, rfl, (matchesWord_headerMask _ 0x01 w).mpr ⟨hrsvd, hop, haux⟩⟩
  | ldinfo d m s =>
    obtain ⟨hop, -⟩ := hi
    exact ⟨_, .tail _ (.head _), rfl, (matchesWord_ldinfoMask _ 0x02 w).mpr ⟨hrsvd, hop⟩⟩
  | rdinfo =>
    obtain ⟨hop, haux⟩ := hi
    exact ⟨_, .tail _ (.tail _ (.head _)), rfl, (matchesWord_headerMask _ 0x03 w).mpr ⟨hrsvd, hop, haux⟩⟩
  | quot h =>
    obtain ⟨hop, haux, -⟩ := hi
    exact ⟨_, .tail _ (.tail _ (.tail _ (.head _))), rfl, (matchesWord_headerMask _ 0x04 w).mpr ⟨hrsvd, hop, haux⟩⟩
  | rem h =>
    obtain ⟨hop, haux, -⟩ := hi
    exact ⟨_, .tail _ (.tail _ (.tail _ (.tail _ (.head _)))), rfl,
      (matchesWord_headerMask _ 0x05 w).mpr ⟨hrsvd, hop, haux⟩⟩

/-- A word that matches a row decodes to a command with the row's mnemonic. -/
theorem exists_decode_of_matchesWord {w : CmdWord} {r : OpcodeRow} (hr : r ∈ opcodeTable)
    (h : r.matchesWord w = true) : ∃ i, decode w = .ok i ∧ r.mnemonic = i.mnemonic := by
  simp only [opcodeTable, List.mem_cons, List.not_mem_nil, or_false] at hr
  obtain rfl | rfl | rfl | rfl | rfl := hr
  · obtain ⟨hrsvd, hop, haux⟩ := (matchesWord_headerMask _ 0x01 w).mp h
    exact ⟨.derive _, decode_eq_ok_iff.mpr ⟨hrsvd, hop, haux, rfl⟩, rfl⟩
  · obtain ⟨hrsvd, hop⟩ := (matchesWord_ldinfoMask _ 0x02 w).mp h
    exact ⟨.ldinfo _ _ _, decode_eq_ok_iff.mpr ⟨hrsvd, hop, rfl, rfl, rfl⟩, rfl⟩
  · obtain ⟨hrsvd, hop, haux⟩ := (matchesWord_headerMask _ 0x03 w).mp h
    exact ⟨.rdinfo, decode_eq_ok_iff.mpr ⟨hrsvd, hop, haux⟩, rfl⟩
  · obtain ⟨hrsvd, hop, haux⟩ := (matchesWord_headerMask _ 0x04 w).mp h
    exact ⟨.quot _, decode_eq_ok_iff.mpr ⟨hrsvd, hop, haux, rfl⟩, rfl⟩
  · obtain ⟨hrsvd, hop, haux⟩ := (matchesWord_headerMask _ 0x05 w).mp h
    exact ⟨.rem _, decode_eq_ok_iff.mpr ⟨hrsvd, hop, haux, rfl⟩, rfl⟩

/-- A mnemonic names one row (R53). -/
theorem eq_of_mnemonic_eq : ∀ r ∈ opcodeTable, ∀ q ∈ opcodeTable, r.mnemonic = q.mnemonic → r = q := by decide

/-- Settles O3: a command's word matches its own row, and a word that matches a row decodes with the row's mnemonic,
which no other row has. -/
theorem wordDecodesIffItMatchesARow : Obligations.WordDecodesIffItMatchesARow := by
  refine fun w => ⟨⟨fun ⟨i, hi⟩ => ?_, fun ⟨r, hr, hw⟩ => ?_⟩, fun i hi r hr => ⟨fun hw => ?_, fun hmn => ?_⟩⟩
  · obtain ⟨r, hr, -, hw⟩ := exists_matching_row hi
    exact ⟨r, hr, hw⟩
  · obtain ⟨i, hi, -⟩ := exists_decode_of_matchesWord hr hw
    exact ⟨i, hi⟩
  · obtain ⟨j, hj, hmn⟩ := exists_decode_of_matchesWord hr hw
    obtain rfl := Except.ok.inj (hi.symm.trans hj)
    exact hmn
  · obtain ⟨q, hq, hqmn, hw⟩ := exists_matching_row hi
    obtain rfl := eq_of_mnemonic_eq r hr q hq (hmn.trans hqmn.symm)
    exact hw

/-! ## Ignored operand words (R45) -/

/-- Words that decode to the same commands do the same: an illegal word's effect does not depend on why it is illegal
(R81). -/
theorem performWord_congr {w v : CmdWord} (h : ∀ i, decode w = .ok i ↔ decode v = .ok i) (s : State) :
    performWord w s = performWord v s := by
  rcases hw : decode w with e | i
  · rcases hv : decode v with e' | j
    · rw [performWord_of_error hw, performWord_of_error hv]
    · cases hw.symm.trans ((h j).mpr hv)
  · rw [performWord_of_ok hw, performWord_of_ok ((h i).mp hw)]

/-- Header bits, read from the word or from its header. -/
theorem extractLsb'_header (w : CmdWord) {i n : Nat} (h : i + n ≤ 32) :
    (w.extractLsb' 0 32).extractLsb' i n = w.extractLsb' i n := by
  ext k hk
  simp only [BitVec.getElem_extractLsb', BitVec.getLsbD_extractLsb', Nat.zero_add]
  grind

/-- Settles O6: such words carry the same commands, since no command reads the operand word in which they may differ. -/
theorem ignoredOperandWordsHaveNoEffect : Obligations.IgnoredOperandWordsHaveNoEffect := by
  intro w v s hhdr huse
  have header {i n : Nat} (h : i + n ≤ 32) : w.extractLsb' i n = v.extractLsb' i n := by
    rw [← extractLsb'_header w h, hhdr, extractLsb'_header v h]
  have hop : cmdOp w = cmdOp v := header (by decide)
  have haux : cmdAux w = cmdAux v := header (by decide)
  have hrsvd : cmdRsvd w = cmdRsvd v := header (by decide)
  have hB : cmdOp v = 0x01 → cmdB w = cmdB v := by grind
  have hA : cmdOp v = 0x04 ∨ cmdOp v = 0x05 → cmdA w = cmdA v := by grind
  have hldinfo : cmdOp v ≠ 0x02 := by grind
  refine performWord_congr (fun i => ?_) s
  rw [decode_eq_ok_iff, decode_eq_ok_iff, hrsvd]
  refine and_congr_right fun _ => ?_
  cases i with
  | derive d =>
    rw [Carries, Carries, hop, haux]
    exact and_congr_right fun h => by rw [hB h]
  | ldinfo d m sh => simp only [Carries, hop, hldinfo, false_and]
  | rdinfo => rw [Carries, Carries, hop, haux]
  | quot h =>
    rw [Carries, Carries, hop, haux]
    exact and_congr_right fun h => by rw [hA (.inl h)]
  | rem h =>
    rw [Carries, Carries, hop, haux]
    exact and_congr_right fun h => by rw [hA (.inr h)]

/-! ## The assembler (R50, R51) -/

/-- The number of a word from its fields: they are adjacent, and together all of it (R40). -/
theorem toNat_eq_fields (w : CmdWord) :
    w.toNat = (cmdB w).toNat * 2 ^ 64 + (cmdA w).toNat * 2 ^ 32 + (cmdRsvd w).toNat * 2 ^ 15 +
      (cmdAmul32 w).toNat * 2 ^ 14 + (cmdAshf w).toNat * 2 ^ 8 + (cmdOp w).toNat := by
  rw [toNat_cmdB, toNat_cmdA, toNat_cmdRsvd, toNat_cmdAmul32, toNat_cmdAshf, toNat_cmdOp]
  omega

theorem toNat_cmdWord (b a : Word32) (r : BitVec 17) (x : BitVec 1) (s : Shift) (o : BitVec 8) :
    (cmdWord b a r x s o).toNat =
      b.toNat * 2 ^ 64 + a.toNat * 2 ^ 32 + r.toNat * 2 ^ 15 + x.toNat * 2 ^ 14 + s.toNat * 2 ^ 8 + o.toNat := by
  rw [toNat_eq_fields, cmdB_cmdWord, cmdA_cmdWord, cmdRsvd_cmdWord, cmdAmul32_cmdWord, cmdAshf_cmdWord, cmdOp_cmdWord]

theorem toNat_encode_derive (d : Word32) : (encode (.derive d)).toNat = d.toNat * 2 ^ 64 + 0x01 := by
  simp [encode, toNat_cmdWord]

theorem toNat_encode_ldinfo (d : Word32) (m : Mult) (s : Shift) :
    (encode (.ldinfo d m s)).toNat =
      d.toNat * 2 ^ 64 + m.toNat % 2 ^ 32 * 2 ^ 32 + m.toNat / 2 ^ 32 * 2 ^ 14 + s.toNat * 2 ^ 8 + 0x02 := by
  have hhigh : m.toNat / 2 ^ 32 % 2 ^ 1 = m.toNat / 2 ^ 32 := Nat.mod_eq_of_lt (by omega)
  simp only [encode, toNat_cmdWord, BitVec.extractLsb'_toNat, Nat.shiftRight_eq_div_pow, hhigh]
  simp

theorem toNat_encode_quot (h : Word32) : (encode (.quot h)).toNat = h.toNat * 2 ^ 32 + 0x04 := by
  simp [encode, toNat_cmdWord]

theorem toNat_encode_rem (h : Word32) : (encode (.rem h)).toNat = h.toNat * 2 ^ 32 + 0x05 := by
  simp [encode, toNat_cmdWord]

theorem wellFormed_ldinfo_iff (d m s : Nat) :
    (AsmLine.ldinfo d m s).wellFormed = true ↔ d < 2 ^ 32 ∧ m < 2 ^ 33 ∧ s < 64 := by
  simp only [AsmLine.wellFormed, Bool.and_eq_true, decide_eq_true_iff, and_assoc]

/-- A line with a number that does not fit is refused (R50). -/
theorem assemble_of_not_wellFormed {l : AsmLine} (h : ¬ l.wellFormed = true) : assemble l = .error .doesNotFit :=
  if_pos (eq_false_of_ne_true h)

/-- A form with one 32-bit operand takes exactly the operands that fit, and its word's number holds the operand at the
bit where its command's word does (R50). -/
theorem assemble_word32_form {l : AsmLine} {i : Word32 → Instr} {n k c : Nat}
    (hfits : l.wellFormed = decide (n < 2 ^ 32))
    (hasm : assemble l = if l.wellFormed = false then .error .doesNotFit else .ok (encode (i (.ofNat 32 n))))
    (hnum : ∀ x, (encode (i x)).toNat = x.toNat * 2 ^ k + c) :
    (n < 2 ^ 32 → ∃ w, assemble l = .ok w ∧ w.toNat = n * 2 ^ k + c) ∧
      (2 ^ 32 ≤ n → assemble l = .error .doesNotFit) := by
  refine ⟨fun hn => ⟨encode (i (.ofNat 32 n)), ?_, ?_⟩, fun hn => assemble_of_not_wellFormed ?_⟩
  · rw [hasm, if_neg (by simp only [hfits, decide_eq_true hn, reduceCtorEq, not_false_eq_true])]
  · rw [hnum, BitVec.toNat_ofNat, Nat.mod_eq_of_lt hn]
  · rw [hfits, decide_eq_true_iff]
    exact hn.not_gt

/-- Settles O8: a well-formed line assembles to an encoded command, whose number is the sum of its fields. -/
theorem assemblerEncodesEveryFittingLine : Obligations.AssemblerEncodesEveryFittingLine := by
  intro l
  cases l with
  | derive d => exact assemble_word32_form rfl rfl toNat_encode_derive
  | ldinfo d m s =>
    refine ⟨fun ⟨hd, hm, hs⟩ => ⟨encode (.ldinfo (.ofNat 32 d) (.ofNat 33 m) (.ofNat 6 s)), if_neg ?_, ?_⟩,
      fun h => assemble_of_not_wellFormed (by rw [wellFormed_ldinfo_iff]; omega)⟩
    · exact ne_false_of_eq_true ((wellFormed_ldinfo_iff d m s).mpr ⟨hd, hm, hs⟩)
    · rw [toNat_encode_ldinfo, BitVec.toNat_ofNat, BitVec.toNat_ofNat, BitVec.toNat_ofNat, Nat.mod_eq_of_lt hd,
        Nat.mod_eq_of_lt hm, Nat.mod_eq_of_lt hs]
  | rdinfo => exact ⟨_, rfl, rfl⟩
  | quot h => exact assemble_word32_form rfl rfl toNat_encode_quot
  | rem h => exact assemble_word32_form rfl rfl toNat_encode_rem
  | bidx h => rfl
  | raw w => rfl

end Sys2Proof.Proofs

/-! SUPPORT. The derivation of 40_derive.md: the search finds the pair of R57 and no other, DERIVE loads it, and the
lookups that follow divide exactly. -/
namespace Sys2Proof.Proofs

open Sys2Proof Sys2Proof.Machine

/-! ## The search and the definition (R57, R60, R64) -/

/-- Settles O27: of all 32-bit n the two boundary points have the greatest excess, and the machine tests those two. -/
theorem twoPointCriterionDecidesExactness : Obligations.TwoPointCriterionDecidesExactness :=
  fun _ _ _ hd _ hm => ⟨exact_iff_boundary hd hm, twoPointExact_iff_exact hd hm⟩

/-- R57 defines one pair: the least exact shift is unique, and it fixes the candidate. -/
theorem derives_unique {d m m' s s' : Nat} (h : Derives d m s) (h' : Derives d m' s') : m = m' ∧ s = s' := by
  obtain ⟨-, rfl, hex, hleast⟩ := h
  obtain ⟨-, rfl, hex', hleast'⟩ := h'
  obtain hlt | rfl | hgt := lt_trichotomy s s'
  · exact absurd hex (hleast' s hlt)
  · exact ⟨rfl, rfl⟩
  · exact absurd hex' (hleast s' hgt)

theorem derive_eq_some_iff_derives {d m s : Nat} (hd : 0 < d) (hd' : d ≤ 2 ^ 32) :
    derive d = some (m, s) ↔ Derives d m s := by
  refine ⟨derives_of_derive_eq_some hd, fun h => ?_⟩
  obtain ⟨m', s', hfound⟩ := exists_derive_eq_some hd hd'
  obtain ⟨rfl, rfl⟩ := derives_unique h (derives_of_derive_eq_some hd hfound)
  exact hfound

/-- Settles O28: what the search finds R57 defines, the search always finds something, and R57 defines one pair. -/
theorem deriveSearchFindsTheDefinedPair : Obligations.DeriveSearchFindsTheDefinedPair :=
  fun _ _ _ _ h3 hd => derive_eq_some_iff_derives (by omega) hd.le

/-- A derived multiplier is positive, since it reaches 2^(32+s) with the divisor (R59). -/
theorem derives_mult_pos {d m s : Nat} (hd : 0 < d) (h : Derives d m s) : 0 < m := by
  obtain ⟨-, rfl, -⟩ := h
  exact Nat.pos_of_mul_pos_right ((Nat.two_pow_pos _).trans_le (two_pow_le_cand_mul hd s))

/-- The bit length of a divisor from 2 to 2^32 - 1 is from 2 to 32 (R59). -/
theorem bitLength_bounds {d l : Nat} (h2 : 2 ≤ d) (hd : d < 2 ^ 32) (hlo : 2 ^ (l - 1) < d) (hhi : d < 2 ^ l) :
    2 ≤ l ∧ l ≤ 32 := by
  have hl : 1 < l := (Nat.pow_lt_pow_iff_right one_lt_two).mp (h2.trans_lt hhi)
  have hl' : l - 1 < 32 := (Nat.pow_lt_pow_iff_right one_lt_two).mp (hlo.trans hd)
  omega

/-- Settles O29: the search returns, and shift l, whose power of two reaches the divisor, is exact. -/
theorem derivationReturnsWithinItsBounds : Obligations.DerivationReturnsWithinItsBounds := by
  intro d l hodd h3 hd hlo hhi
  have hpos : 0 < d := by omega
  obtain ⟨m, s, hfound⟩ := exists_derive_eq_some hpos hd.le
  have hder : Derives d m s := derives_of_derive_eq_some hpos hfound
  obtain ⟨hl2, hl32⟩ := bitLength_bounds (by omega) hd hlo hhi
  exact ⟨m, s, hfound, hder, derives_shift_le hpos hhi.le hder, hl2, hl32, derives_mult_pos hpos hder,
    Nat.le_pred_of_lt (derives_mult_lt hodd h3 hd hder)⟩

/-- An inexact multiplier is wrong at one of R60's two boundary points. -/
theorem exists_boundary_wrong {d m s : Nat} (hd : 0 < d) (hm : 2 ^ (32 + s) ≤ m * d) (h : ¬ Exact d m s) :
    ∃ n, n < 2 ^ 32 ∧ (n = (2 ^ 32 - 1) / d * d - 1 ∨ n = 2 ^ 32 - 1) ∧ (n * m) >>> (32 + s) ≠ n / d := by
  by_contra! hright
  have hQ : (2 ^ 32 - 1) / d * d ≤ 2 ^ 32 - 1 := Nat.div_mul_le_self _ _
  have hlast := hright (2 ^ 32 - 1) (by omega) (.inr rfl)
  have hfull := hright ((2 ^ 32 - 1) / d * d - 1) (by omega) (.inl rfl)
  rw [shiftRight_eq_div_iff hm] at hlast hfull
  refine h ((exact_iff_boundary hd hm).mpr ⟨hlast, (Nat.eq_zero_or_pos _).imp_right fun hq => ?_⟩)
  rwa [excess_pred_mul hd m s hq] at hfull

/-- Settles O30: the derived shift is the least exact one, so the candidate one below it is wrong at a boundary point. -/
theorem shiftBelowTheDerivedOneFails : Obligations.ShiftBelowTheDerivedOneFails := by
  intro d m s _ h3 _ hfound hs
  have hpos : 0 < d := by omega
  obtain ⟨-, -, -, hleast⟩ := derives_of_derive_eq_some hpos hfound
  have hwrong := exists_boundary_wrong hpos (two_pow_le_cand_mul hpos (s - 1)) (hleast (s - 1) (by omega))
  rwa [show 32 + (s - 1) = 31 + s by omega] at hwrong

/-! ## DERIVE of an accepted divisor (R58, R61) -/

/-- In every state DERIVE loads one and the same valid triple. -/
theorem execDerive_loads_validTriple {d : Word32} (hd : acceptable d = true) :
    ∃ m sh, ValidTriple d m sh ∧ ∀ s : State, execDerive d s = .next (s.loadTriple d m sh).completeWithTriple := by
  obtain ⟨m, sh, hload⟩ := execDerive_of_acceptable hd
  obtain ⟨hrej, -⟩ | ⟨-, m', sh', hfound, heq⟩ := execDerive_cases d State.reset _ (hload State.reset)
  · simp [hd] at hrej
  · obtain rfl : m = BitVec.ofNat 33 m' := congrArg State.mul heq
    obtain rfl : sh = BitVec.ofNat 6 sh' := congrArg State.shf heq
    exact ⟨_, _, validTriple_of_derive hd hfound, hload⟩

/-- Settles O31: the triple DERIVE loads is valid, which is R57's definition. -/
theorem deriveLoadsTheDerivedTriple : Obligations.DeriveLoadsTheDerivedTriple := by
  intro d s hodd h3
  obtain ⟨m, sh, ⟨-, hder⟩, hload⟩ := execDerive_loads_validTriple ((acceptable_iff d).mpr ⟨hodd, h3⟩)
  exact ⟨m, sh, hder, hload s⟩

/-- Settles O32: a rejected divisor raises its error in both states, an accepted one loads one triple in both. -/
theorem deriveDependsOnTheDivisorAlone : Obligations.DeriveDependsOnTheDivisorAlone := by
  intro d s u
  cases hd : acceptable d with
  | false =>
    refine ⟨_, _, execDerive_of_rejected hd s, execDerive_of_rejected hd u, fun hodd h3 => ?_⟩
    simp [(acceptable_iff d).mpr ⟨hodd, h3⟩] at hd
  | true =>
    obtain ⟨m, sh, hload⟩ := execDerive_of_acceptable hd
    exact ⟨_, _, hload s, hload u, fun _ _ => ⟨rfl, rfl, rfl, rfl, _, _, _, _, rfl, rfl⟩⟩

/-! ## Lookups with a valid triple (R65, R66, R69) -/

theorem quotientOf_of_validTriple {d : Word32} {m : Mult} {sh : Shift} (hv : ValidTriple d m sh) (h : Word32) :
    quotientOf h m sh = BitVec.ofNat 32 (h.toNat / d.toNat) := by
  obtain ⟨-, -, -, hexact, -⟩ := hv
  rw [quotientOf, hexact h.toNat h.isLt]

/-- The quotient has no more than h's 32 bits, so QF truncates nothing (R69). -/
theorem toNat_quotientOf_of_validTriple {d : Word32} {m : Mult} {sh : Shift} (hv : ValidTriple d m sh) (h : Word32) :
    (quotientOf h m sh).toNat = h.toNat / d.toNat := by
  rw [quotientOf_of_validTriple hv, BitVec.toNat_ofNat, Nat.mod_eq_of_lt ((Nat.div_le_self _ _).trans_lt h.isLt)]

/-- The quotient times d is at most h, so RF's subtraction does not wrap (R69). -/
theorem remainderOf_of_validTriple {d : Word32} {m : Mult} {sh : Shift} (hv : ValidTriple d m sh) (h : Word32) :
    remainderOf h d m sh = BitVec.ofNat 32 (h.toNat % d.toNat) := by
  have hdm : h.toNat / d.toNat * d.toNat + h.toNat % d.toNat = h.toNat := Nat.div_add_mod' _ _
  have hh : h.toNat < 2 ^ 32 := h.isLt
  have hsub : h.toNat + 2 ^ 32 - h.toNat / d.toNat * d.toNat % 2 ^ 32 = h.toNat % d.toNat + 2 ^ 32 := by
    rw [Nat.mod_eq_of_lt (by omega)]
    omega
  apply BitVec.eq_of_toNat_eq
  rw [remainderOf, toNat_quotientOf_of_validTriple hv, hsub, BitVec.toNat_ofNat, BitVec.toNat_ofNat,
    Nat.add_mod_right]

theorem execQuot_of_vld {s : State} (hv : s.vld = true) (h : Word32) :
    execQuot h s = .next (s.completeWithX (quotientOf h s.mul s.shf)) := by
  obtain ⟨hv', -⟩ | ⟨-, hexec⟩ := execQuot_cases h s
  · simp [hv] at hv'
  · exact hexec

theorem execRem_of_vld {s : State} (hv : s.vld = true) (h : Word32) :
    execRem h s = .next (s.completeWithX (remainderOf h s.div s.mul s.shf)) := by
  obtain ⟨hv', -⟩ | ⟨-, hexec⟩ := execRem_cases h s
  · simp [hv] at hv'
  · exact hexec

/-- Words that leave the triple, performed one after the other, complete and leave it (R13, R34). -/
theorem exists_performAll_leavesTriple {ws : List CmdWord} (hws : ∀ w ∈ ws, LeavesTriple w) (s : State) :
    ∃ t, performAll ws s = .next t ∧ t.div = s.div ∧ t.mul = s.mul ∧ t.shf = s.shf ∧ t.vld = s.vld := by
  induction ws generalizing s with
  | nil => exact ⟨s, rfl, rfl, rfl, rfl, rfl⟩
  | cons w ws ih =>
    obtain ⟨hw, hrest⟩ := List.forall_mem_cons.mp hws
    obtain ⟨t, -, ht, -⟩ := exists_performWord_answered w s
    obtain ⟨hdiv, hmul, hshf, hvld⟩ := performWord_leavesTriple_frame hw ht
    obtain ⟨u, hu, hdiv', hmul', hshf', hvld'⟩ := ih hrest t
    exact ⟨u, (performAll_cons ht ws).trans hu, hdiv'.trans hdiv, hmul'.trans hmul, hshf'.trans hshf,
      hvld'.trans hvld⟩

/-- With a valid triple in use, QUOT h and REM h respond with h div DIV and h mod DIV (R69). -/
theorem lookups_of_validTriple {s : State} (hvld : s.vld = true) (hv : ValidTriple s.div s.mul s.shf) (h : Word32) :
    exec (.quot h) s = .next (s.completeWithX (BitVec.ofNat 32 (h.toNat / s.div.toNat))) ∧
      exec (.rem h) s = .next (s.completeWithX (BitVec.ofNat 32 (h.toNat % s.div.toNat))) := by
  rw [← quotientOf_of_validTriple hv, ← remainderOf_of_validTriple hv]
  exact ⟨execQuot_of_vld hvld h, execRem_of_vld hvld h⟩

/-- Settles O45: DERIVE loads a valid triple, the words after it leave it, and lookups with it are exact division. -/
theorem lookupsAfterDeriveAreExactDivision : Obligations.LookupsAfterDeriveAreExactDivision := by
  intro d s ws hodd h3 hws
  obtain ⟨m, sh, hv, hload⟩ := execDerive_loads_validTriple ((acceptable_iff d).mpr ⟨hodd, h3⟩)
  obtain ⟨u, hu, hdiv, hmul, hshf, hvld⟩ :=
    exists_performAll_leavesTriple hws (s.loadTriple d m sh).completeWithTriple
  obtain rfl : u.div = d := hdiv
  obtain rfl : u.mul = m := hmul
  obtain rfl : u.shf = sh := hshf
  replace hvld : u.vld = true := hvld
  refine ⟨_, u, hload s, hu, fun h => ?_⟩
  obtain ⟨hquot, hrem⟩ := lookups_of_validTriple hvld hv h
  refine ⟨_, _, hquot, hrem, ?_, ?_⟩ <;> rw [State.completeWithX_undelivered, hvld]

end Sys2Proof.Proofs

/-! SUPPORT. The lookups of 41_divmod.md: the datapaths QF and RF as arithmetic, QUOT and REM with a triple in use, and
exact division by a valid triple. -/
namespace Sys2Proof.Proofs

open Sys2Proof Sys2Proof.Machine

/-! ## The datapaths (R65, R66) -/

/-- QF with its logical right shift read as division by the power of two (R65). -/
theorem quotientOf_eq_div (h : Word32) (m : Mult) (s : Shift) :
    quotientOf h m s = BitVec.ofNat 32 (h.toNat * m.toNat / 2 ^ (32 + s.toNat)) := by
  rw [quotientOf, Nat.shiftRight_eq_div_pow]

/-- RF is the 32-bit difference: the borrow 2^32 it adds vanishes mod 2^32 (R66). -/
theorem remainderOf_eq_sub (h d : Word32) (m : Mult) (s : Shift) :
    remainderOf h d m s = h - quotientOf h m s * d := by
  have hwrap : (quotientOf h m s).toNat * d.toNat % 2 ^ 32 < 2 ^ 32 := Nat.mod_lt _ (Nat.two_pow_pos 32)
  apply BitVec.eq_of_toNat_eq
  rw [remainderOf, BitVec.toNat_ofNat, BitVec.toNat_sub, BitVec.toNat_mul]
  congr 1
  omega

/-- Settles O39: a 32-bit h times a 33-bit multiplier fits 65 bits, and QF keeps the low 32 of the shifted product. -/
theorem quotientDatapathFormula : Obligations.QuotientDatapathFormula := by
  intro h m s _
  refine ⟨?_, by rw [quotientOf_eq_div, BitVec.toNat_ofNat]⟩
  calc h.toNat * m.toNat < 2 ^ 32 * 2 ^ 33 := Nat.mul_lt_mul'' h.isLt m.isLt
    _ = 2 ^ 65 := (Nat.pow_add 2 32 33).symm

/-- Settles O40: both readings of RF, as a Nat mod 2^32 and as the difference of words. -/
theorem remainderDatapathFormula : Obligations.RemainderDatapathFormula :=
  fun h d m s _ => ⟨by rw [remainderOf, BitVec.toNat_ofNat], remainderOf_eq_sub h d m s⟩

/-! ## QUOT and REM with a triple in use (R67, R68) -/

/-- Settles O41: with VLD = 1 QUOT completes with QF, in which DIV does not occur. -/
theorem quotRespondsWithTheQuotient : Obligations.QuotRespondsWithTheQuotient := by
  intro h s hv _
  have hexec : exec (.quot h) s = .next (s.completeWithX (quotientOf h s.mul s.shf)) := execQuot_of_vld hv h
  rw [hexec, State.completeWithX_eq, quotientOf_eq_div, hv]

/-- Settles O42: with VLD = 1 REM completes with RF, whether or not the triple is valid (R70). -/
theorem remRespondsWithTheRemainder : Obligations.RemRespondsWithTheRemainder := by
  intro h s hv _
  have hexec : exec (.rem h) s = .next (s.completeWithX (remainderOf h s.div s.mul s.shf)) := execRem_of_vld hv h
  rw [hexec, State.completeWithX_eq, remainderOf_eq_sub, quotientOf_eq_div, hv]

/-! ## Exact division by a valid triple (R69) -/

/-- The greatest quotient is that of h = 2^32 - 1 by 3, the least accepted divisor (R69). -/
theorem div_le_of_three_le {d : Nat} (h3 : 3 ≤ d) (h : Word32) : h.toNat / d ≤ 0x55555555 :=
  calc h.toNat / d ≤ (2 ^ 32 - 1) / 3 := Nat.div_le_div (Nat.le_pred_of_lt h.isLt) h3 (by decide)
    _ = 0x55555555 := rfl

theorem toNat_remainderOf_of_validTriple {d : Word32} {m : Mult} {sh : Shift} (hv : ValidTriple d m sh) (h : Word32) :
    (remainderOf h d m sh).toNat = h.toNat % d.toNat := by
  rw [remainderOf_of_validTriple hv, BitVec.toNat_ofNat, Nat.mod_eq_of_lt ((Nat.mod_le _ _).trans_lt h.isLt)]

/-- Settles O44: the datapaths of a valid triple are div and mod, and its divisor is at least 3. -/
theorem validTripleDividesExactly : Obligations.ValidTripleDividesExactly := by
  intro d m sh hv h
  have ⟨⟨_, h3⟩, _⟩ := hv
  exact ⟨toNat_quotientOf_of_validTriple hv h, div_le_of_three_le h3 h, toNat_remainderOf_of_validTriple hv h,
    Nat.mod_lt _ (by omega)⟩

end Sys2Proof.Proofs

/-! SUPPORT. The transfer of info triples of 42_info.md: RDINFO shows a triple, LDINFO loads one, and a saved response
is an LDINFO of the triple it shows. -/
namespace Sys2Proof.Proofs

open Sys2Proof Sys2Proof.Machine

/-! ## LDINFO and RDINFO (R73, R74) -/

theorem execLdinfo_of_accepted {d : Word32} {sh : Shift} (hd : acceptable d = true) (hsh : sh.toNat ≤ 32) (m : Mult)
    (s : State) : execLdinfo d m sh s = .next ((s.loadTriple d m sh).completeWithX 0) := by
  obtain ⟨hrej, -⟩ | ⟨-, hgt, -⟩ | ⟨-, -, hexec⟩ := execLdinfo_cases d m sh s
  · simp [hd] at hrej
  · exact absurd hsh hgt.not_ge
  · exact hexec

/-- Settles O34: neither check of R73 rejects, and the multiplier is not checked. -/
theorem ldinfoLoadsItsTriple : Obligations.LdinfoLoadsItsTriple :=
  fun _ m _ s hodd h3 hsh => execLdinfo_of_accepted ((acceptable_iff _).mpr ⟨hodd, h3⟩) hsh m s

/-- Settles O36: RDINFO only completes, with the triple as its result. -/
theorem rdinfoShowsTheTriple : Obligations.RdinfoShowsTheTriple :=
  fun s => congrArg Host.Outcome.next s.completeWithTriple_eq

/-! ## Lookups after LDINFO of a valid triple (R76) -/

/-- Settles O38: a valid triple passes both checks of LDINFO, and lookups with it are exact division. -/
theorem ldinfoOfValidTripleGivesExactLookups : Obligations.LdinfoOfValidTripleGivesExactLookups := by
  intro d m sh s hv
  have ⟨hd, hsh, _⟩ := hv
  refine ⟨_, execLdinfo_of_accepted ((acceptable_iff d).mpr hd) hsh m s, fun h => ?_⟩
  obtain ⟨hquot, hrem⟩ := lookups_of_validTriple (s := (s.loadTriple d m sh).completeWithX 0) rfl hv h
  exact ⟨_, _, hquot, hrem, State.completeWithX_undelivered .., State.completeWithX_undelivered ..⟩

/-! ## A saved response as an LDINFO (R75) -/

/-- R75's command word: a response with all but its triple masked away, under the opcode of LDINFO. -/
def reloadWord (r : RspWord) : CmdWord := (r &&& 0xFFFFFFFFFFFFFFFF00007F00) ||| 0x000000000000000000000002

theorem cmdWord_or (b a b' a' : Word32) (r r' : BitVec 17) (x x' : BitVec 1) (s s' : Shift) (o o' : BitVec 8) :
    cmdWord b a r x s o ||| cmdWord b' a' r' x' s' o' =
      cmdWord (b ||| b') (a ||| a') (r ||| r') (x ||| x') (s ||| s') (o ||| o') := by
  unfold cmdWord
  ext i hi
  simp only [BitVec.getElem_or, BitVec.getElem_append]
  grind

/-- A response has its result, RMUL32 and RSHF where a command has its operands, AMUL32 and ASHF (R40, R41). -/
theorem rspWord_eq_cmdWord (st : BitVec 8) (x y : Word32) (rshf : Shift) (rmul32 : BitVec 1) (v : Bool)
    (fe : BitVec 8) :
    rspWord st x y rshf rmul32 v fe = cmdWord y x ((0x00 : BitVec 8) ++ fe ++ BitVec.ofBool v) rmul32 rshf st := by
  unfold rspWord cmdWord
  ext i hi
  simp only [BitVec.getElem_append]
  grind

/-- The response by which DERIVE and RDINFO show the triple in the registers (R41). -/
def tripleResponse (s : State) : RspWord :=
  rspWord 0x00 (s.mul.extractLsb' 0 32) s.div s.shf (s.mul.extractLsb' 32 1) s.vld s.firstErr

theorem completeWithTriple_response {s : State} {rs : List RspWord} {r : RspWord} (hs : s.undelivered = rs)
    (hr : s.completeWithTriple.undelivered = rs ++ [r]) : r = tripleResponse s.completeWithTriple := by
  rw [State.completeWithTriple_undelivered, hs] at hr
  exact (List.singleton_inj.mp (List.append_cancel_left hr)).symm

/-- The mask keeps the triple alone, so R75's word is the one `encode` gives. -/
theorem reloadWord_tripleResponse (s : State) :
    reloadWord (tripleResponse s) = encode (.ldinfo s.div s.mul s.shf) := by
  have hmask : (0xFFFFFFFFFFFFFFFF00007F00 : CmdWord) =
      cmdWord (.allOnes 32) (.allOnes 32) 0 (.allOnes 1) (.allOnes 6) 0 := by decide
  have hop : (0x000000000000000000000002 : CmdWord) = cmdWord 0 0 0 0 0 0x02 := by decide
  rw [reloadWord, tripleResponse, rspWord_eq_cmdWord, hmask, hop, cmdWord_and, cmdWord_or, encode]
  simp only [BitVec.and_allOnes, BitVec.ofNat_eq_ofNat, BitVec.and_zero, BitVec.or_zero, BitVec.zero_or]

/-- RVLD of such a response is VLD (R41). -/
theorem vld_of_rspVld_tripleResponse {s : State} (h : rspVld (tripleResponse s) = 1) : s.vld = true := by
  rw [tripleResponse, rspVld_rspWord] at h
  cases hv : s.vld with
  | true => rfl
  | false => simp [hv] at h

/-- LDINFO of a triple it accepts, as a word performed (R47, R73). -/
theorem performWord_encode_ldinfo {d : Word32} {sh : Shift} (hd : acceptable d = true) (hsh : sh.toNat ≤ 32)
    (m : Mult) (s : State) :
    performWord (encode (.ldinfo d m sh)) s = .next ((s.loadTriple d m sh).completeWithX 0) :=
  (performWord_of_ok (decode_encode _) s).trans (execLdinfo_of_accepted hd hsh m s)

/-- An RDINFO, and a DERIVE that completes with OK, shows the triple it leaves, and keeps R20's invariant. -/
theorem exec_tripleResponse {i : Instr} {s t : State} {r : RspWord}
    (hi : i = .rdinfo ∨ ∃ d, i = .derive d ∧ rspStatus r = 0x00) (h : exec i s = .next t)
    (hr : t.undelivered = s.undelivered ++ [r]) :
    r = tripleResponse t ∧ (RegistersLegal s → RegistersLegal t) := by
  obtain rfl | ⟨d, rfl, hst⟩ := hi
  · obtain rfl : s.completeWithTriple = t := Host.Outcome.next.inj h
    exact ⟨completeWithTriple_response rfl hr, id⟩
  · obtain ⟨-, rfl⟩ | ⟨hd, m, sh, hfound, rfl⟩ := execDerive_cases d s t h
    · obtain rfl := List.singleton_inj.mp (List.append_cancel_left hr)
      simp at hst
    · obtain ⟨hd', hsh, -⟩ := validTriple_of_derive hd hfound
      exact ⟨completeWithTriple_response (State.loadTriple_undelivered ..) hr, fun _ => ⟨hsh, fun _ => hd'⟩⟩

/-- Settles O37: R75's word encodes an LDINFO of the triple shown, and R20's invariant makes LDINFO accept it if
VLD = 1. -/
theorem savedResponseReloadsItsTriple : Obligations.SavedResponseReloadsItsTriple := by
  intro i s t r hi h hr
  obtain ⟨rfl, hlegal⟩ := exec_tripleResponse hi h hr
  rw [← reloadWord, reloadWord_tripleResponse]
  refine ⟨decode_encode _, fun hodd h3 hsh u => ?reloads, fun hs hv => ?accepted⟩
  case reloads =>
    exact ⟨_, _, performWord_encode_ldinfo ((acceptable_iff _).mpr ⟨hodd, h3⟩) hsh t.mul u, rfl, rfl, rfl, rfl, rfl,
      rspStatus_rspWord ..⟩
  case accepted =>
    obtain ⟨hshf, hdiv⟩ := hlegal hs
    obtain ⟨hodd, h3⟩ := hdiv (vld_of_rspVld_tripleResponse hv)
    exact ⟨hodd, h3, hshf⟩

end Sys2Proof.Proofs

/-! SUPPORT. The exceptions of 60_exceptions.md: the status a command reports (R77, R86), what an error does (R84, R85),
the errors of each command (R79, R82, R83), and a unit that always goes on (R84, R95). -/
namespace Sys2Proof.Proofs

open Sys2Proof Sys2Proof.Machine

/-! ## What `raise` does (R84, R85) -/

/-- `raise E()` of a failing status, with R85's rule for FIRSTERR written out. -/
theorem raiseError_of_ne_ok {e : Status} (he : e ≠ .ok) (s : State) :
    s.raiseError e =
      { s with
        vld := vldAfterError e s.vld
        firstErr := if s.firstErr = 0 then statusCode e else s.firstErr
        undelivered := s.undelivered ++ [rspWord (statusCode e) 0 0 0 0 (vldAfterError e s.vld)
          (if s.firstErr = 0 then statusCode e else s.firstErr)] } := by
  rw [State.raiseError_eq, firstErrAfter_error e s.firstErr he]

/-- R84's VLD write, by the code that the response shows. -/
theorem vldAfterError_eq_ite (e : Status) (v : Bool) :
    vldAfterError e v = if statusCode e = 0x01 ∨ statusCode e = 0x05 then false else v := by
  cases e with
  | ok | derivationInvariantViolation | illegalCommand | noInfo => exact (if_neg (by decide)).symm
  | invalidDivisor | invalidShift => exact (if_pos (by decide)).symm

/-- R85's rule, by the code that the response shows. -/
theorem firstErrAfter_eq_ite (st : Status) (fe : BitVec 8) :
    firstErrAfter st fe = if statusCode st ≠ 0x00 ∧ fe = 0x00 then statusCode st else fe := by
  simp only [firstErrAfter, ne_eq, statusCode_eq_zero_iff]

@[simp] theorem firstErrAfter_zero (st : Status) : firstErrAfter st 0 = statusCode st := by
  by_cases hst : st = .ok
  · rw [hst, firstErrAfter_ok, statusCode_ok]
  · rw [firstErrAfter_error st 0 hst, if_pos rfl]

/-- Of two failures one after the other, FIRSTERR shows the first (R85). -/
theorem firstErrAfter_firstErrAfter {e : Status} (he : e ≠ .ok) (st : Status) (fe : BitVec 8) :
    firstErrAfter st (firstErrAfter e fe) = firstErrAfter e fe :=
  firstErrAfter_of_ne_zero st (firstErrAfter_ne_zero he fe)

/-! ## The errors of each command (R79, R82, R83) -/

theorem execLdinfo_of_rejected {d : Word32} (hd : acceptable d = false) (m : Mult) (sh : Shift) (s : State) :
    execLdinfo d m sh s = .next (s.raiseError .invalidDivisor) :=
  if_pos hd

theorem execLdinfo_of_shift_gt {d : Word32} {sh : Shift} (hd : acceptable d = true) (hsh : 32 < sh.toNat) (m : Mult)
    (s : State) : execLdinfo d m sh s = .next (s.raiseError .invalidShift) := by
  obtain ⟨hrej, -⟩ | ⟨-, -, hexec⟩ | ⟨-, hle, -⟩ := execLdinfo_cases d m sh s
  · simp [hd] at hrej
  · exact hexec
  · exact absurd hle hsh.not_ge

theorem execQuot_of_not_vld {s : State} (hv : s.vld = false) (h : Word32) :
    execQuot h s = .next (s.raiseError .noInfo) :=
  if_pos hv

theorem execRem_of_not_vld {s : State} (hv : s.vld = false) (h : Word32) :
    execRem h s = .next (s.raiseError .noInfo) :=
  if_pos hv

/-- Settles O33: DERIVE and LDINFO check the divisor first, and raise INVALID_DIVISOR. -/
theorem badDivisorIsRejected : Obligations.BadDivisorIsRejected := by
  intro d s hbad i hi
  have hd : acceptable d = false := (acceptable_eq_false_iff d).mpr hbad
  have hexec : exec i s = .next (s.raiseError .invalidDivisor) := by
    obtain rfl | ⟨m, sh, rfl⟩ := hi
    · exact execDerive_of_rejected hd s
    · exact execLdinfo_of_rejected hd m sh s
  rw [hexec, raiseError_of_ne_ok (by decide), vldAfterError_invalidDivisor, statusCode_invalidDivisor]

/-- Settles O35: the divisor passes its check, the shift does not, and LDINFO raises INVALID_SHIFT. -/
theorem ldinfoRejectsShiftAbove32 : Obligations.LdinfoRejectsShiftAbove32 := by
  intro d m sh s hodd h3 hsh
  have hexec : exec (.ldinfo d m sh) s = .next (s.raiseError .invalidShift) :=
    execLdinfo_of_shift_gt ((acceptable_iff d).mpr ⟨hodd, h3⟩) hsh m s
  rw [hexec, raiseError_of_ne_ok (by decide), vldAfterError_invalidShift, statusCode_invalidShift]

/-- Settles O43: with VLD = 0 both lookups raise NO_INFO, which leaves VLD. -/
theorem lookupWithoutTripleIsNoInfo : Obligations.LookupWithoutTripleIsNoInfo := by
  intro h s i hv hi
  have hexec : exec i s = .next (s.raiseError .noInfo) := by
    obtain rfl | rfl := hi
    · exact execQuot_of_not_vld hv h
    · exact execRem_of_not_vld hv h
  rw [hexec, raiseError_of_ne_ok (by decide), vldAfterError_noInfo, statusCode_noInfo, hv]

/-! ## The status of a command (R77, R86) -/

/-- The status a command reports (`exec_completes`): of the conditions of R86, the first that applies. -/
def commandStatus (i : Instr) (s : State) : Status :=
  match i with
  | .derive d => if acceptable d then .ok else .invalidDivisor
  | .ldinfo d _ sh => if acceptable d then if 32 < sh.toNat then .invalidShift else .ok else .invalidDivisor
  | .rdinfo => .ok
  | .quot _ | .rem _ => if s.vld then .ok else .noInfo

/-- The status a command word reports (`performWord_completes`): an illegal word's comes before all others (R86). -/
def wordStatus (w : CmdWord) (s : State) : Status :=
  match decode w with
  | .ok i => commandStatus i s
  | .error _ => .illegalCommand

/-- From `s` to `t` a command has completed with status `st`. FIRSTERR follows R85, the one response has the code and
shows the flags of `t` (R41), and a failure is a `raise` and nothing else (R84). -/
structure Completes (s : State) (st : Status) (t : State) : Prop where
  firstErr : t.firstErr = firstErrAfter st s.firstErr
  response : ∃ x y rshf rmul32,
    t.undelivered = s.undelivered ++ [rspWord (statusCode st) x y rshf rmul32 t.vld t.firstErr]
  error : st ≠ .ok → t = s.raiseError st

theorem completes_raiseError (s : State) (e : Status) : Completes s e (s.raiseError e) where
  firstErr := rfl
  response := ⟨0, 0, 0, 0, rfl⟩
  error _ := rfl

theorem completes_completeWithX (s : State) (x : Word32) : Completes s .ok (s.completeWithX x) where
  firstErr := rfl
  response := ⟨x, 0, 0, 0, rfl⟩
  error h := absurd rfl h

theorem completes_completeWithTriple (s : State) : Completes s .ok s.completeWithTriple where
  firstErr := rfl
  response := ⟨_, _, _, _, rfl⟩
  error h := absurd rfl h

/-- Loading the triple first touches neither FIRSTERR nor the responses. -/
theorem completes_of_loadTriple {s t : State} {d : Word32} {m : Mult} {sh : Shift}
    (h : Completes (s.loadTriple d m sh) .ok t) : Completes s .ok t where
  firstErr := h.firstErr
  response := h.response
  error h := absurd rfl h

/-- Every command completes, with the status of R86. -/
theorem exec_completes (i : Instr) (s : State) : ∃ t, exec i s = .next t ∧ Completes s (commandStatus i s) t := by
  cases i with
  | derive d =>
    cases hd : acceptable d with
    | false =>
      simp only [commandStatus, hd, Bool.false_eq_true, if_false]
      exact ⟨_, execDerive_of_rejected hd s, completes_raiseError s .invalidDivisor⟩
    | true =>
      obtain ⟨m, sh, hload⟩ := execDerive_of_acceptable hd
      simp only [commandStatus, hd, if_true]
      exact ⟨_, hload s, completes_of_loadTriple (completes_completeWithTriple _)⟩
  | ldinfo d m sh =>
    obtain ⟨hd, hexec⟩ | ⟨hd, hsh, hexec⟩ | ⟨hd, hsh, hexec⟩ := execLdinfo_cases d m sh s <;>
      refine ⟨_, hexec, ?_⟩
    · simpa [commandStatus, hd] using completes_raiseError s .invalidDivisor
    · simpa [commandStatus, hd, hsh] using completes_raiseError s .invalidShift
    · simpa [commandStatus, hd, hsh.not_gt] using
        completes_of_loadTriple (completes_completeWithX (s.loadTriple d m sh) 0)
  | rdinfo => exact ⟨_, rfl, completes_completeWithTriple s⟩
  | quot h =>
    obtain ⟨hv, hexec⟩ | ⟨hv, hexec⟩ := execQuot_cases h s <;> refine ⟨_, hexec, ?_⟩
    · simpa [commandStatus, hv] using completes_raiseError s .noInfo
    · simpa [commandStatus, hv] using completes_completeWithX s _
  | rem h =>
    obtain ⟨hv, hexec⟩ | ⟨hv, hexec⟩ := execRem_cases h s <;> refine ⟨_, hexec, ?_⟩
    · simpa [commandStatus, hv] using completes_raiseError s .noInfo
    · simpa [commandStatus, hv] using completes_completeWithX s _

theorem exists_performWord_completes (w : CmdWord) (s : State) :
    ∃ t, performWord w s = .next t ∧ Completes s (wordStatus w s) t := by
  rcases hw : decode w with e | i
  · rw [performWord_of_error hw]
    simp only [wordStatus, hw]
    exact ⟨_, rfl, completes_raiseError s .illegalCommand⟩
  · rw [performWord_of_ok hw]
    simp only [wordStatus, hw]
    exact exec_completes i s

theorem performWord_completes {w : CmdWord} {s t : State} (h : performWord w s = .next t) :
    Completes s (wordStatus w s) t := by
  obtain ⟨u, hu, hcomp⟩ := exists_performWord_completes w s
  obtain rfl := Host.Outcome.next.inj (h.symm.trans hu)
  exact hcomp

theorem completes_codes {s t : State} {st : Status} {r : RspWord} (h : Completes s st t)
    (hr : t.undelivered = s.undelivered ++ [r]) : rspStatus r = statusCode st ∧ rspFirstErr r = t.firstErr := by
  obtain ⟨-, ⟨x, y, rshf, rmul32, hresp⟩, -⟩ := h
  obtain rfl := List.singleton_inj.mp (List.append_cancel_left (hr.symm.trans hresp))
  exact ⟨rspStatus_rspWord .., rspFirstErr_rspWord ..⟩

/-- Settles O19: the one response shows the code of `wordStatus`, which tests in R86's order. -/
theorem reportedStatusFollowsPriority : Obligations.ReportedStatusFollowsPriority := by
  intro w s
  obtain ⟨t, ht, hcomp⟩ := exists_performWord_completes w s
  have ⟨x, y, rshf, rmul32, hresp⟩ := hcomp.response
  refine ⟨t, _, ht, hresp, ?_⟩
  rw [rspStatus_rspWord]
  rcases hw : decode w with e | i
  · simp only [wordStatus, hw, statusCode_illegalCommand]
  · simp only [wordStatus, hw]
    cases i with
    | derive d =>
      simp only [commandStatus, acceptable_iff, apply_ite statusCode, statusCode_ok, statusCode_invalidDivisor]
    | ldinfo d m sh =>
      simp only [commandStatus, acceptable_iff, apply_ite statusCode, statusCode_ok, statusCode_invalidDivisor,
        statusCode_invalidShift, ite_not]
    | rdinfo => rfl
    | quot h => cases hv : s.vld <;> simp [commandStatus, hv]
    | rem h => cases hv : s.vld <;> simp [commandStatus, hv]

/-- Settles O20: a command whose response shows a failure is one `raise` of it. -/
theorem errorsArePrecise : Obligations.ErrorsArePrecise := by
  intro w s t r h hr hst
  have hcomp := performWord_completes h
  obtain ⟨hcode, -⟩ := completes_codes hcomp hr
  rw [hcode] at hst ⊢
  obtain rfl := hcomp.error (mt (statusCode_eq_zero_iff _).mpr hst)
  exact ⟨rfl, rfl, rfl, vldAfterError_eq_ite _ _, (List.singleton_inj.mp (List.append_cancel_left hr)).symm⟩

/-- Settles O21: R85's rule reads the status, and the response shows the status and the outcome. -/
theorem firstErrUpdateRule : Obligations.FirstErrUpdateRule := by
  intro w s t r h hr
  have hcomp := performWord_completes h
  obtain ⟨hcode, hfe⟩ := completes_codes hcomp hr
  exact ⟨by rw [hcode, hcomp.firstErr, firstErrAfter_eq_ite], hfe⟩

/-! ## The unit goes on (R84, R95) -/

theorem performNext_of_nil {s : State} (h : s.inFlight = []) : performNext s = .next s := by
  simp only [performNext, h]

/-- Settles O14: no event and no command in flight leave a step nothing to do. -/
theorem idleUnitHoldsItsState : Obligations.IdleUnitHoldsItsState := by
  intro s hev hin
  rw [step_of_no_event hev, popEvent_of_nil hev, performNext_of_nil hin]

/-- No word stops the unit, and with none to perform it idles or stalls (R84, R95, R103). -/
theorem exists_performNext_next (s : State) : ∃ t, performNext s = .next t := by
  obtain ⟨t, ht, -⟩ := exists_performNext_foldsTo s
  exact ⟨t, ht⟩

theorem exists_runEvent_next (e : Event) (s : State) : ∃ t, runEvent e s = .next t := by
  cases e with
  | perform => exact exists_performNext_next s
  | command w => exact ⟨_, rfl⟩
  | commandByte b => exact ⟨_, rfl⟩
  | stalled w => exact ⟨_, rfl⟩
  | takeResponse => exact ⟨_, rfl⟩
  | reset => exact ⟨_, rfl⟩

/-- Settles O17: only a command performed could stop the unit, and every command completes. -/
theorem everyStepGoesOn : Obligations.EveryStepGoesOn := by
  intro s
  unfold SafeStep
  cases hev : s.events with
  | nil =>
    rw [step_of_no_event hev]
    exact exists_performNext_next _
  | cons e rest =>
    rw [step_of_event hev]
    exact exists_runEvent_next e _

/-! ## Building a catalog (R85, R101) -/

/-- The status of the first DERIVE of the catalog that fails, or OK (`performAll_derive_firstErr`). -/
def catalogStatus : List Word32 → Status
  | [] => .ok
  | d :: ds => if acceptable d then catalogStatus ds else .invalidDivisor

theorem catalogStatus_cons_of_acceptable {d : Word32} (hd : acceptable d = true) (ds : List Word32) :
    catalogStatus (d :: ds) = catalogStatus ds :=
  if_pos hd

theorem catalogStatus_cons_of_rejected {d : Word32} (hd : acceptable d = false) (ds : List Word32) :
    catalogStatus (d :: ds) = .invalidDivisor :=
  if_neg (by rw [hd]; decide)

theorem catalogStatus_eq_ok_iff (ds : List Word32) : catalogStatus ds = .ok ↔ ∀ d ∈ ds, acceptable d = true := by
  induction ds with
  | nil => simp [catalogStatus]
  | cons d ds ih =>
    rw [List.forall_mem_cons]
    cases hd : acceptable d with
    | false => simp [catalogStatus_cons_of_rejected hd]
    | true => simpa [catalogStatus_cons_of_acceptable hd] using ih

theorem catalogStatus_cases (ds : List Word32) : catalogStatus ds = .ok ∨ catalogStatus ds = .invalidDivisor := by
  induction ds with
  | nil => exact .inl rfl
  | cons d ds ih =>
    cases hd : acceptable d with
    | false => exact .inr (catalogStatus_cons_of_rejected hd ds)
    | true => rwa [catalogStatus_cons_of_acceptable hd]

theorem wordStatus_encode_derive (d : Word32) (s : State) :
    wordStatus (encode (.derive d)) s = if acceptable d then .ok else .invalidDivisor := by
  simp only [wordStatus, decode_encode, commandStatus]

/-- The DERIVEs of a catalog leave in FIRSTERR what one command with the catalog's status would (R85). -/
theorem performAll_derive_firstErr {ds : List Word32} {s t : State}
    (h : performAll (ds.map fun d => encode (.derive d)) s = .next t) :
    t.firstErr = firstErrAfter (catalogStatus ds) s.firstErr := by
  induction ds generalizing s with
  | nil =>
    obtain rfl := Host.Outcome.next.inj h
    rfl
  | cons d ds ih =>
    obtain ⟨u, hu, hrest⟩ := performAll_cons_next h
    have hfe := (performWord_completes hu).firstErr
    rw [ih hrest, hfe, wordStatus_encode_derive]
    cases hd : acceptable d with
    | false =>
      rw [catalogStatus_cons_of_rejected hd]
      exact firstErrAfter_firstErrAfter (by decide) _ _
    | true =>
      rw [catalogStatus_cons_of_acceptable hd]
      rfl

/-- The fold completes, and its responses wait behind those before it (R34, R35). -/
theorem exists_performAll_undelivered (ws : List CmdWord) (s : State) :
    ∃ t rs, performAll ws s = .next t ∧ t.undelivered = s.undelivered ++ rs ∧ rs.length = ws.length := by
  induction ws generalizing s with
  | nil => exact ⟨s, [], rfl, (List.append_nil _).symm, rfl⟩
  | cons w ws ih =>
    obtain ⟨t, r, ht, hund, -⟩ := exists_performWord_answered w s
    obtain ⟨u, rs, hu, hrest, hlen⟩ := ih t
    exact ⟨u, r :: rs, (performAll_cons ht ws).trans hu, by rw [hrest, hund, List.append_assoc, List.singleton_append],
      congrArg Nat.succ hlen⟩

/-- Settles O49: from FIRSTERR = 0 the catalog's status is what FIRSTERR shows at the end. -/
theorem firstErrShowsAFailedCatalogBuild : Obligations.FirstErrShowsAFailedCatalogBuild := by
  intro ds s hs
  obtain ⟨t, rs, ht, hund, hlen⟩ := exists_performAll_undelivered (ds.map fun d => encode (.derive d)) s
  have hfe : t.firstErr = statusCode (catalogStatus ds) := by
    rw [performAll_derive_firstErr ht, hs]
    exact firstErrAfter_zero _
  refine ⟨t, ht, ?shows, ?codes, rs, hund, by rw [hlen, List.length_map]⟩
  case shows => simp only [hfe, statusCode_eq_zero_iff, catalogStatus_eq_ok_iff, acceptable_iff]
  case codes =>
    rw [hfe]
    exact (catalogStatus_cases ds).imp (congrArg statusCode) (congrArg statusCode)

end Sys2Proof.Proofs

/-! SUPPORT. Reset and hazards of 70_reset_and_hazards.md: the first command after reset (R99), and the stall of a unit
that holds all the responses it can (R103). -/
namespace Sys2Proof.Proofs

open Sys2Proof Sys2Proof.Machine

/-! ## The first command after reset (R99) -/

/-- A word presented to a unit that can hold its response is what the next step performs (R34, R103). -/
theorem step_presentNext {s : State} (hroom : s.undelivered.length < Config.responseCapacity) (w : CmdWord) :
    step (s.presentNext w) = performWord w s := by
  rw [s.presentNext_of_room w (s.hasResponseRoom_iff.mpr hroom)]
  exact step_performs rfl (.inl rfl) hroom

/-- A unit just reset holds no response, so it performs the first command presented to it (R97). -/
theorem step_reset_presentNext_encode (i : Instr) :
    step (State.reset.presentNext (encode i)) = exec i State.reset := by
  have hroom : State.reset.undelivered.length < Config.responseCapacity := Nat.succ_pos _
  rw [step_presentNext hroom, performWord_of_ok (decode_encode i)]

/-- The one response of a unit that had FIRSTERR = 0 and VLD = 0 when it raised NO_INFO (R82, R85). -/
theorem reset_noInfo_undelivered :
    (State.reset.raiseError .noInfo).undelivered = [rspWord 0x04 0 0 0 0 false 0x04] := by
  rw [State.raiseError_undelivered, State.reset_firstErr, firstErrAfter_zero]
  rfl

/-- RDINFO shows R26's reset values, which are all 0. -/
theorem reset_withTriple_undelivered : State.reset.completeWithTriple.undelivered = [0] := by decide

/-- Settles O13: each command runs on the reset state, where VLD is 0 and there is room for the response. -/
theorem firstCommandAfterReset : Obligations.FirstCommandAfterReset := by
  refine ⟨fun h => ?quot, fun h => ?rem, ?rdinfo, fun d hodd h3 => ?derive⟩
  case quot =>
    exact ⟨_, (step_reset_presentNext_encode _).trans (execQuot_of_not_vld rfl h), reset_noInfo_undelivered⟩
  case rem =>
    exact ⟨_, (step_reset_presentNext_encode _).trans (execRem_of_not_vld rfl h), reset_noInfo_undelivered⟩
  case rdinfo => exact ⟨_, step_reset_presentNext_encode .rdinfo, reset_withTriple_undelivered⟩
  case derive =>
    obtain ⟨m, sh, hload⟩ := execDerive_of_acceptable ((acceptable_iff d).mpr ⟨hodd, h3⟩)
    exact ⟨_, _, (step_reset_presentNext_encode _).trans (hload _), rfl, rspStatus_rspWord .., rfl, rfl⟩

/-! ## A unit full of responses (R103) -/

/-- From `s` to `t` the unit has at most accepted commands: no register is written, no response given or taken, and
each command in flight still is. -/
structure OnlyAccepts (s t : State) : Prop where
  registers : SameRegisters t s
  undelivered : t.undelivered = s.undelivered
  delivered : t.delivered = s.delivered
  inFlight : s.inFlight <+: t.inFlight

theorem onlyAccepts_refl (s : State) : OnlyAccepts s s where
  registers := ⟨rfl, rfl, rfl, rfl, rfl⟩
  undelivered := rfl
  delivered := rfl
  inFlight := ⟨[], List.append_nil _⟩

theorem sameRegisters_trans {s t u : State} (hst : SameRegisters s t) (htu : SameRegisters t u) :
    SameRegisters s u := by
  obtain ⟨hdiv, hmul, hshf, hvld, hfe⟩ := hst
  obtain ⟨hdiv', hmul', hshf', hvld', hfe'⟩ := htu
  exact ⟨hdiv.trans hdiv', hmul.trans hmul', hshf.trans hshf', hvld.trans hvld', hfe.trans hfe'⟩

theorem onlyAccepts_trans {s t u : State} (hst : OnlyAccepts s t) (htu : OnlyAccepts t u) : OnlyAccepts s u where
  registers := sameRegisters_trans htu.registers hst.registers
  undelivered := htu.undelivered.trans hst.undelivered
  delivered := htu.delivered.trans hst.delivered
  inFlight := hst.inFlight.trans htu.inFlight

theorem onlyAccepts_acceptWord (s : State) (w : CmdWord) : OnlyAccepts s (s.acceptWord w) := by
  refine ⟨sameRegisters_acceptWord s w, ?_, ?_, ?_⟩ <;>
    obtain ⟨-, h⟩ | ⟨-, h⟩ := s.acceptWord_cases w <;> simp [h]

theorem onlyAccepts_acceptByte (s : State) (b : Byte) : OnlyAccepts s (s.acceptByte b) := by
  refine ⟨sameRegisters_acceptByte s b, ?_, ?_, ?_⟩ <;>
    obtain ⟨-, h⟩ | ⟨-, -, h⟩ | ⟨-, -, h⟩ := s.acceptByte_cases b <;> simp [h]

/-- With no room for a response the unit performs nothing (R103). -/
theorem performNext_of_full {s : State} (hfull : Config.responseCapacity ≤ s.undelivered.length) :
    performNext s = .next s := by
  obtain ⟨w, q, -, hroom, -⟩ | ⟨-, hp⟩ := performNext_cases s
  · exact absurd (s.hasResponseRoom_iff.mp hroom) hfull.not_gt
  · exact hp

/-- Short of a reset and of the taking of a response, a step of a full unit at most accepts a command (R103). -/
theorem exists_step_onlyAccepts {s : State} (hfull : Config.responseCapacity ≤ s.undelivered.length)
    (hreset : s.events.head? ≠ some .reset) (htake : s.events.head? ≠ some .takeResponse) :
    ∃ t, step s = .next t ∧ OnlyAccepts s t := by
  suffices h : ∃ t, step s = .next t ∧ OnlyAccepts (popEvent s) t by
    obtain ⟨t, hstep, hregs, hund, hdel, hin⟩ := h
    exact ⟨t, hstep, hregs, hund, hdel, hin⟩
  have hperform : performNext (popEvent s) = .next (popEvent s) := performNext_of_full hfull
  cases hev : s.events with
  | nil => exact ⟨_, (step_of_no_event hev).trans hperform, onlyAccepts_refl _⟩
  | cons e rest =>
    rw [step_of_event hev]
    cases e with
    | command w => exact ⟨_, rfl, onlyAccepts_acceptWord (popEvent s) w⟩
    | commandByte b => exact ⟨_, rfl, onlyAccepts_acceptByte (popEvent s) b⟩
    | stalled w => exact ⟨_, rfl, onlyAccepts_refl _⟩
    | perform => exact ⟨_, hperform, onlyAccepts_refl _⟩
    | takeResponse => simp [hev] at htake
    | reset => simp [hev] at hreset

/-- A step that at most accepts leaves the unit full and takes its event from the script, so the stall goes on. -/
theorem exists_run_onlyAccepts (k : Nat) {s : State} (hfull : Config.responseCapacity ≤ s.undelivered.length)
    (hreset : Event.reset ∉ s.events) (htake : Event.takeResponse ∉ s.events) :
    ∃ t, Sys2Proof.core.run k s = .next t ∧ OnlyAccepts s t := by
  induction k generalizing s with
  | zero => exact ⟨s, rfl, onlyAccepts_refl s⟩
  | succ k ih =>
    obtain ⟨t, hstep, hst⟩ := exists_step_onlyAccepts hfull (fun h => hreset (List.mem_of_mem_head? h))
      (fun h => htake (List.mem_of_mem_head? h))
    have hleft {e : Event} (h : e ∈ t.events) : e ∈ s.events := List.mem_of_mem_tail (step_events hstep ▸ h)
    obtain ⟨u, hrun, htu⟩ := ih (hst.undelivered ▸ hfull) (fun h => hreset (hleft h)) (fun h => htake (hleft h))
    exact ⟨u, (run_succ_of_step k s t hstep).trans hrun, onlyAccepts_trans hst htu⟩

theorem run_of_step_self {s : State} (h : step s = .next s) (k : Nat) : Sys2Proof.core.run k s = .next s := by
  induction k with
  | zero => rfl
  | succ k ih => exact (run_succ_of_step k s s h).trans ih

/-- Settles O51: a full unit at most accepts, and with an empty script its step leaves its state. -/
theorem hostThatTakesNoResponseStallsTheUnit : Obligations.HostThatTakesNoResponseStallsTheUnit := by
  refine fun k s hfull => ⟨fun hreset htake => ?script, fun hev => ?empty⟩
  case script =>
    obtain ⟨t, hrun, hregs, hund, hdel, ws, hin⟩ := exists_run_onlyAccepts k hfull hreset htake
    exact ⟨t, ws, hrun, hregs, hund, hdel, hin.symm⟩
  case empty =>
    refine run_of_step_self ?_ k
    rw [step_of_no_event hev, popEvent_of_nil hev, performNext_of_full hfull]

end Sys2Proof.Proofs
